-- ==== Sys2Proof/Word.lean ====
section
/-! DEFINITION. The word types: a byte of the wire or of a memory, the 4-bit nibble of a sequence
number, the 16-bit half word of lengths and result values, the 32-bit operation and result word
(spec/00_scope.md R9: every value is unsigned). -/

namespace Sys2Proof

/-- "a byte is 8 bits" (R9). -/
abbrev Byte := BitVec 8

/-- "Nibble is 4 bits" (R9). -/
abbrev Nibble := BitVec 4

/-- A 16-bit quantity: a length, an index operand, the value of a result word. -/
abbrev Half := BitVec 16

/-- A 32-bit operation word (R90) or result word (R93). -/
abbrev Word := BitVec 32

end Sys2Proof
end

