-- ==== Sys2Proof/Config.lean ====
section
/-! DEFINITION. The implementation parameters of spec/00_scope.md R7 and the free values.

Every parameter is a field of `Params`: every state carries its parameters and no operation changes them
(R233). A parameter marked SOURCE has the source's value as its default, which the reset state takes (U14
and D3). A parameter marked OPEN is at reset a constant without a body, so that no proof can know it (U13:
a model must not fix them). -/

namespace Sys2Proof

/-- The byte arrays of R60 (spec/20_memory.md), and the internal `ACKB` of R38. They are separate
spaces: no index of one reaches another. -/
inductive Space where
  /-- ring storage, `RB_CAP` bytes -/
  | rb
  /-- receive payload buffer, `MAX_PAYLOAD` bytes -/
  | rxp
  /-- transmit payload buffer, `MAX_PAYLOAD` bytes -/
  | txp
  /-- acknowledgement buffer, 2 bytes -/
  | ackb
deriving DecidableEq, Repr

/-- The parameters of R7. `SYNC_DELAY` is timing only and is left out (log entry 4). -/
structure Params where
  /-- `FRAME_MARKER`, SOURCE: first byte of every frame -/
  frameMarker : Byte := 0x1E
  /-- `ACK_CMD`, SOURCE: the acknowledgement opcode -/
  ackCmd : Byte := 0x7F
  /-- `PWRON_DONE_CMD`, SOURCE: the command that signals completion of power-on -/
  pwronDoneCmd : Byte := 0xF4
  /-- `MAX_PAYLOAD`, SOURCE: capacity in bytes of each payload buffer -/
  maxPayload : Nat := 512
  /-- log2 of `RB_CAP`: a power of two is given by its exponent -/
  rbIndexBits : Nat
  /-- `ADDR_DEST` -/
  addrDest : Byte
  /-- `ADDR_SRC` -/
  addrSrc : Byte
  /-- `SYNC_BYTE` -/
  syncByte : Byte
  /-- `SYNC_COUNT` -/
  syncCount : Nat
  /-- `SEQ_FIRST` -/
  seqFirst : Nibble
  /-- `SEQ_NEXT` -/
  seqNext : Nibble
  /-- `TIMEOUT_DURATION`, in a unit the source does not give; carried on every `start` request -/
  timeoutDuration : Nat
deriving DecidableEq, Repr

/-- `RB_CAP`: "a power of two" (R7, R8). -/
def Params.rbCap (p : Params) : Nat := 2 ^ p.rbIndexBits

/-- The constraints of R8 and R7: `RB_CAP` at least 2 (a power of two by its form), `MAX_PAYLOAD` in
1..65535, `SYNC_COUNT` at least 1, `SEQ_FIRST` and `SEQ_NEXT` differ, and `ACK_CMD` and `PWRON_DONE_CMD`
differ (U14). -/
def Params.ok (p : Params) : Bool :=
  decide (1 ≤ p.rbIndexBits) && decide (1 ≤ p.maxPayload) && decide (p.maxPayload ≤ 65535) &&
    decide (1 ≤ p.syncCount) && decide (p.seqFirst ≠ p.seqNext) && decide (p.ackCmd ≠ p.pwronDoneCmd)

namespace Config

/-- OPEN: log2 of `RB_CAP`, less one (so that every value meets R8). -/
opaque rbIndexBitsLessOne : Nat

/-- OPEN: `ADDR_DEST`. -/
opaque addrDest : Byte

/-- OPEN: `ADDR_SRC`. -/
opaque addrSrc : Byte

/-- OPEN: `SYNC_BYTE`. -/
opaque syncByte : Byte

/-- OPEN: `SYNC_COUNT`, less one (so that every value meets R7's "at least 1"). -/
opaque syncCountLessOne : Nat

/-- OPEN: `SEQ_FIRST`. -/
opaque seqFirst : Nibble

/-- OPEN: the value chosen for `SEQ_NEXT`; one equal to `SEQ_FIRST` is moved by `seqNext`. -/
opaque seqNextChoice : Nibble

/-- OPEN: `TIMEOUT_DURATION`. -/
opaque timeoutDuration : Nat

/-- `SEQ_NEXT`: any value other than `SEQ_FIRST` (R8). -/
def seqNext : Nibble := if seqNextChoice = seqFirst then seqFirst + 1 else seqNextChoice

/-- The parameters of the machine at reset: the source's values where it gives one (log entry 1), for the
others any that meet R8 (log entry 2). -/
def params : Params where
  rbIndexBits := rbIndexBitsLessOne + 1
  addrDest := addrDest
  addrSrc := addrSrc
  syncByte := syncByte
  syncCount := syncCountLessOne + 1
  seqFirst := seqFirst
  seqNext := seqNext
  timeoutDuration := timeoutDuration

/-- FREE VALUE (R76, U1, U3, U4): the content after the `epoch`-th hardware reset of a byte of a
memory that nothing has written since (log entry 6). -/
opaque initialByte (epoch : Nat) (space : Space) (index : Nat) : Byte

/-- FREE VALUE (R76, R195, U2): what `RXB_READ` of an index outside the valid range answers; the
generation advances whenever the decoder takes a byte or is reset (log entry 7). -/
opaque unspecifiedRx (generation index : Nat) : Byte

/-- FREE VALUE: what `REG_READ` of a ring register answers when the index does not fit the 16 bits of a
result value, which R50 does not provide for (log entry 8). -/
opaque wideRegister (number : Byte) (value : Nat) : Half

end Config

end Sys2Proof
end

