-- ==== Sys2Proof/Syntax.lean ====
section
/-! DEFINITION. The instructions: one constructor per row of spec/opcode_table.json (the eighteen
operation-word rows of spec/30_encoding.md R92 and the three wire-frame classes of R88), and the
three request ports of R81. -/

namespace Sys2Proof

/-- The request ports (R81), each the context of one agent (R211). -/
inductive Port where
  /-- Port H: the host, every operation but two -/
  | host
  /-- Port P: the producer, only `RB_WRITE` -/
  | producer
  /-- Port T: the timer service, only `TMR_EXPIRE` -/
  | timer
deriving DecidableEq, Repr

/-- The operations (R80), operands as R91 assembles them, and the wire frames (R82, R87, R88). -/
inductive Instr where
  /-- `NOP` (R190) -/
  | nop
  /-- `RB_WRITE b` (R111), port P -/
  | rbWrite (b : Byte)
  /-- `RB_READ` (R112) -/
  | rbRead
  /-- `RB_CLEAR` (R113) -/
  | rbClear
  /-- `DEC_STEP` (R121) -/
  | decStep
  /-- `DEC_RESET` (R134) -/
  | decReset
  /-- `ENC_FRAME cmd` (R145) -/
  | encFrame (cmd : Byte)
  /-- `TXB_WRITE idx, b` (R192) -/
  | txbWrite (idx : Half) (b : Byte)
  /-- `TXB_SETLEN len` (R193) -/
  | txbSetlen (len : Half)
  /-- `TXB_READ idx` (R194) -/
  | txbRead (idx : Half)
  /-- `RXB_READ idx` (R195) -/
  | rxbRead (idx : Half)
  /-- `REG_READ n` (R191) -/
  | regRead (n : Byte)
  /-- `LNK_INIT` (R156) -/
  | lnkInit
  /-- `LNK_POWER_ON` with `tx = 0` (R157) -/
  | lnkPowerOn
  /-- `LNK_POWER_ON` with `tx = 1` (R157) -/
  | lnkPowerOnTx (cmd : Byte)
  /-- `LNK_SEND cmd, exp` (R158) -/
  | lnkSend (cmd exp : Byte)
  /-- `LNK_POLL` (R159) -/
  | lnkPoll
  /-- `TMR_EXPIRE` (R168), port T -/
  | tmrExpire
  /-- `WIRE.ACK`: an acknowledgement frame (R87) arriving on the line -/
  | wireAck (dest src acked : Byte) (seq : Nibble)
  /-- `WIRE.PWRON_DONE`: a power-on completion frame (R88, R163) arriving on the line -/
  | wirePwronDone (dest src : Byte) (payload : List Byte)
  /-- `WIRE.DATA`: any other frame (R82, R88) arriving on the line -/
  | wireData (dest src cmd : Byte) (payload : List Byte)
deriving DecidableEq, Repr

end Sys2Proof
end

