-- ==== Sys2Proof/WellFormed.lean ====
section
/-! DEFINITION. Which instructions are well formed. The operand types already bound every field of an
operation word (R90, R91), so every operation is; a wire frame must have a payload length that the
opcode table admits (two bytes for an acknowledgement, R87) and, for WIRE.DATA, a command byte of no other
class (R88), with the parameters of R7. -/

namespace Sys2Proof

/-- "1<=L<=MAX_PAYLOAD" (opcode_table.json, R84). -/
def payloadFits (p : Params) (payload : List Byte) : Bool :=
  decide (1 ≤ payload.length) && decide (payload.length ≤ p.maxPayload)

/-- "byte3=any other value" (opcode_table.json, R88). -/
def dataCommand (p : Params) (cmd : Byte) : Bool :=
  decide (cmd ≠ p.ackCmd) && decide (cmd ≠ p.pwronDoneCmd)

/-- The instructions that, with these parameters, the encodings of R82, R87 and R92 can express. -/
def Instr.wellFormed (p : Params) : Instr → Bool
  | .nop => true
  | .rbWrite _ => true
  | .rbRead => true
  | .rbClear => true
  | .decStep => true
  | .decReset => true
  | .encFrame _ => true
  | .txbWrite _ _ => true
  | .txbSetlen _ => true
  | .txbRead _ => true
  | .rxbRead _ => true
  | .regRead _ => true
  | .lnkInit => true
  | .lnkPowerOn => true
  | .lnkPowerOnTx _ => true
  | .lnkSend _ _ => true
  | .lnkPoll => true
  | .tmrExpire => true
  | .wireAck _ _ _ _ => decide (2 ≤ p.maxPayload)
  | .wirePwronDone _ _ payload => payloadFits p payload
  | .wireData _ _ cmd payload => dataCommand p cmd && payloadFits p payload

end Sys2Proof
end

