-- ==== Sys2Proof/Decode.lean ====
section
/-! DEFINITION. Both encodings of spec/30_encoding.md: the 32-bit operation word (R90 to R94) and the
wire frame (R82 to R88). The decoder is total and rejects by name; the encoder follows it. -/

namespace Sys2Proof

/-- Why an encoding stands for no instruction. -/
inductive Reject where
  /-- `op` is 0x11 to 0xFF (R94) -/
  | unknownOp
  /-- a field that R91 requires to be 0 is not 0 (R94) -/
  | mustBeZero
  /-- fewer than the six header bytes of R82 -/
  | shortHeader
  /-- the first byte is not the frame marker (R82, R89) -/
  | noMarker
  /-- the length field is 0 or above `MAX_PAYLOAD` (R84, R89) -/
  | lengthRange
  /-- more or fewer bytes than R84 gives a frame of this length -/
  | totalLength
  /-- the padding byte is not the 0x00 that R82 puts there -/
  | padding
  /-- the even checksum byte is not that of R85 -/
  | evenChecksum
  /-- the odd checksum byte is not that of R85 -/
  | oddChecksum
  /-- command `ACK_CMD` with a payload that R87 does not give an acknowledgement -/
  | ackShape
deriving DecidableEq, Repr

/-- What is presented to the block: an operation word on a port, or the bytes of a frame on the line. -/
inductive Encoded where
  | word (w : Word)
  | frame (bytes : List Byte)
deriving DecidableEq, Repr

/-! ## The operation word -/

/-- The field `op` [31:24] (R90). -/
def opField (w : Word) : Byte := w.extractLsb' 24 8

/-- The field `a` [23:8] (R90). -/
def aField (w : Word) : Half := w.extractLsb' 8 16

/-- The field `b` [7:0] (R90). -/
def bField (w : Word) : Byte := w.extractLsb' 0 8

/-- Word bits [15:8], the low byte of `a`: `exp` of `LNK_SEND` (R91). -/
def aLow (w : Word) : Byte := w.extractLsb' 8 8

/-- Word bits [23:16], the high byte of `a` (R91). -/
def aHigh (w : Word) : Byte := w.extractLsb' 16 8

/-- An operation word of its three fields (R90). -/
def packWord (op : Byte) (a : Half) (b : Byte) : Word := op ++ a ++ b

/-- `i` if the condition on the must-be-zero fields holds (R91, R94). -/
def ifZero (zero : Bool) (i : Instr) : Except Reject Instr :=
  if zero then .ok i else .error .mustBeZero

/-- The operation a word stands for, by the codes of R92 and the operand fields of R91. -/
def decodeWord (w : Word) : Except Reject Instr :=
  match (opField w).toNat with
  | 0x00 => ifZero (aField w == 0 && bField w == 0) .nop
  | 0x01 => ifZero (aField w == 0) (.rbWrite (bField w))
  | 0x02 => ifZero (aField w == 0 && bField w == 0) .rbRead
  | 0x03 => ifZero (aField w == 0 && bField w == 0) .rbClear
  | 0x04 => ifZero (aField w == 0 && bField w == 0) .decStep
  | 0x05 => ifZero (aField w == 0 && bField w == 0) .decReset
  | 0x06 => ifZero (aField w == 0) (.encFrame (bField w))
  | 0x07 => .ok (.txbWrite (aField w) (bField w))
  | 0x08 => ifZero (bField w == 0) (.txbSetlen (aField w))
  | 0x09 => ifZero (bField w == 0) (.txbRead (aField w))
  | 0x0A => ifZero (bField w == 0) (.rxbRead (aField w))
  | 0x0B => ifZero (aField w == 0) (.regRead (bField w))
  | 0x0C => ifZero (aField w == 0 && bField w == 0) .lnkInit
  | 0x0D =>
    if aField w == 1 then .ok (.lnkPowerOnTx (bField w))
    else ifZero (aField w == 0 && bField w == 0) .lnkPowerOn
  | 0x0E => ifZero (aHigh w == 0) (.lnkSend (bField w) (aLow w))
  | 0x0F => ifZero (aField w == 0 && bField w == 0) .lnkPoll
  | 0x10 => ifZero (aField w == 0 && bField w == 0) .tmrExpire
  | _ => .error .unknownOp

/-- `match` and `mask` of every row of R92, in the order of the table. -/
def opcodeRows : List (Word × Word) :=
  [(0x00000000, 0xFFFFFFFF), (0x01000000, 0xFFFFFF00), (0x02000000, 0xFFFFFFFF),
   (0x03000000, 0xFFFFFFFF), (0x04000000, 0xFFFFFFFF), (0x05000000, 0xFFFFFFFF),
   (0x06000000, 0xFFFFFF00), (0x07000000, 0xFF000000), (0x08000000, 0xFF0000FF),
   (0x09000000, 0xFF0000FF), (0x0A000000, 0xFF0000FF), (0x0B000000, 0xFFFFFF00),
   (0x0C000000, 0xFFFFFFFF), (0x0D000000, 0xFFFFFFFF), (0x0D000100, 0xFFFFFF00),
   (0x0E000000, 0xFFFF0000), (0x0F000000, 0xFFFFFFFF), (0x10000000, 0xFFFFFFFF)]

/-- "a word `W` selects the row when `W & mask == match`" (R92). -/
def selects (w : Word) (row : Word × Word) : Bool := w &&& row.2 == row.1

/-- The port that takes an operation (R81). A wire frame arrives through the producer (R61). -/
def Instr.port : Instr → Port
  | .nop => .host
  | .rbWrite _ => .producer
  | .rbRead => .host
  | .rbClear => .host
  | .decStep => .host
  | .decReset => .host
  | .encFrame _ => .host
  | .txbWrite _ _ => .host
  | .txbSetlen _ => .host
  | .txbRead _ => .host
  | .rxbRead _ => .host
  | .regRead _ => .host
  | .lnkInit => .host
  | .lnkPowerOn => .host
  | .lnkPowerOnTx _ => .host
  | .lnkSend _ _ => .host
  | .lnkPoll => .host
  | .tmrExpire => .timer
  | .wireAck _ _ _ _ => .producer
  | .wirePwronDone _ _ _ => .producer
  | .wireData _ _ _ _ => .producer

/-! ## The wire frame -/

/-- "`L = {byte4, byte5}`" (R83). -/
def lengthOf (hi lo : Byte) : Half := hi ++ lo

/-- Bits [15:8] of a length, the byte at position 4 (R83). -/
def lengthHigh (len : Half) : Byte := len.extractLsb' 8 8

/-- Bits [7:0] of a length, the byte at position 5 (R83). -/
def lengthLow (len : Half) : Byte := len.extractLsb' 0 8

/-- The XOR of the bytes at even positions and of the bytes at odd positions (R85). The tail of a list
has its positions shifted by one, so the two swap. -/
def parityXor : List Byte → Byte × Byte
  | [] => (0, 0)
  | b :: bs => (b ^^^ (parityXor bs).2, (parityXor bs).1)

/-- The padding byte, "present only if length is odd" (R82). -/
def paddingOf (payload : List Byte) : List Byte :=
  if payload.length % 2 = 1 then [0x00] else []

/-- The bytes of a frame before the checksum pair, padding included (R82, R85). -/
def frameBody (p : Params) (dest src cmd : Byte) (payload : List Byte) : List Byte :=
  [p.frameMarker, dest, src, cmd, lengthHigh (BitVec.ofNat 16 payload.length),
    lengthLow (BitVec.ofNat 16 payload.length)] ++ payload ++ paddingOf payload

/-- A whole frame: the body, the even checksum, the odd checksum (R82, R85). -/
def frameBytes (p : Params) (dest src cmd : Byte) (payload : List Byte) : List Byte :=
  frameBody p dest src cmd payload ++
    [(parityXor (frameBody p dest src cmd payload)).1,
      (parityXor (frameBody p dest src cmd payload)).2]

/-- The payload of an acknowledgement: "`[acknowledged_command, sequence_nibble]`" (R87). -/
def ackPayload (acked : Byte) (seq : Nibble) : List Byte := [acked, seq.setWidth 8]

/-- The class of a frame by its command byte (R88), the acknowledgement in the form of R87. -/
def classify (p : Params) (dest src cmd : Byte) (payload : List Byte) : Except Reject Instr :=
  if cmd = p.ackCmd then
    match payload with
    | [acked, s] =>
      if s.extractLsb' 4 4 = 0 then .ok (.wireAck dest src acked (s.setWidth 4))
      else .error .ackShape
    | _ => .error .ackShape
  else if cmd = p.pwronDoneCmd then .ok (.wirePwronDone dest src payload)
  else .ok (.wireData dest src cmd payload)

/-- The two checksum bytes of a frame against those of R85. -/
def checkPair (p : Params) (dest src cmd : Byte) (payload : List Byte) (even odd : Byte) :
    Except Reject Instr :=
  if even ≠ (parityXor (frameBody p dest src cmd payload)).1 then .error .evenChecksum
  else if odd ≠ (parityXor (frameBody p dest src cmd payload)).2 then .error .oddChecksum
  else classify p dest src cmd payload

/-- The frame a sequence of bytes is, by the layout of R82: the length field alone says where the
payload, the padding and the checksums stand (R84). -/
def decodeFrame (p : Params) : List Byte → Except Reject Instr
  | marker :: dest :: src :: cmd :: hi :: lo :: rest =>
    let len := (lengthOf hi lo).toNat
    if marker ≠ p.frameMarker then .error .noMarker
    else if len = 0 ∨ len > p.maxPayload then .error .lengthRange
    else if rest.length ≠ len + len % 2 + 2 then .error .totalLength
    else
      match rest.drop len with
      | [even, odd] => checkPair p dest src cmd (rest.take len) even odd
      | [pad, even, odd] =>
        if pad ≠ 0x00 then .error .padding
        else checkPair p dest src cmd (rest.take len) even odd
      | _ => .error .totalLength
  | _ => .error .shortHeader

/-- The instruction that something presented to the block stands for, with the parameters of R7. -/
def decode (p : Params) : Encoded → Except Reject Instr
  | .word w => decodeWord w
  | .frame bytes => decodeFrame p bytes

/-! ## The encoder -/

/-- The encoding of a well-formed instruction: its operation word (R91, R92), or its frame (R82, R87). -/
def encode (p : Params) : Instr → Encoded
  | .nop => .word (packWord 0x00 0 0)
  | .rbWrite b => .word (packWord 0x01 0 b)
  | .rbRead => .word (packWord 0x02 0 0)
  | .rbClear => .word (packWord 0x03 0 0)
  | .decStep => .word (packWord 0x04 0 0)
  | .decReset => .word (packWord 0x05 0 0)
  | .encFrame cmd => .word (packWord 0x06 0 cmd)
  | .txbWrite idx b => .word (packWord 0x07 idx b)
  | .txbSetlen len => .word (packWord 0x08 len 0)
  | .txbRead idx => .word (packWord 0x09 idx 0)
  | .rxbRead idx => .word (packWord 0x0A idx 0)
  | .regRead n => .word (packWord 0x0B 0 n)
  | .lnkInit => .word (packWord 0x0C 0 0)
  | .lnkPowerOn => .word (packWord 0x0D 0 0)
  | .lnkPowerOnTx cmd => .word (packWord 0x0D 1 cmd)
  | .lnkSend cmd exp => .word (packWord 0x0E (exp.setWidth 16) cmd)
  | .lnkPoll => .word (packWord 0x0F 0 0)
  | .tmrExpire => .word (packWord 0x10 0 0)
  | .wireAck dest src acked seq => .frame (frameBytes p dest src p.ackCmd (ackPayload acked seq))
  | .wirePwronDone dest src payload => .frame (frameBytes p dest src p.pwronDoneCmd payload)
  | .wireData dest src cmd payload => .frame (frameBytes p dest src cmd payload)

/-! ## The host's numbering of an instruction's bits -/

/-- Byte `k` of a number whose bit 0 is the least significant bit of byte 0. -/
def byteOfNat (w k : Nat) : Byte := BitVec.ofNat 8 (w >>> (8 * k))

/-- How many bytes the frame starting in `w` has (R84), read from its length field. -/
def frameLengthOfNat (w : Nat) : Nat :=
  let len := (lengthOf (byteOfNat w 4) (byteOfNat w 5)).toNat
  6 + len + len % 2 + 2

/-- What the table's bits stand for: up to 32 bits are an operation word, more are a frame, its first
byte in the lowest bits. -/
def encodedOfTable (nbits w : Nat) : Encoded :=
  if nbits ≤ 32 then .word (BitVec.ofNat 32 w)
  else .frame ((List.range (frameLengthOfNat w)).map (byteOfNat w))

/-- The instruction the decoder reads from the bits of a table row with the parameters of
the reset state, none where it rejects them. -/
def decodeTableWord (nbits w : Nat) : Option Instr :=
  (decode Config.params (encodedOfTable nbits w)).toOption

end Sys2Proof
end

