-- ==== Sys2Proof/Machine/State.lean ====
section
/-! DEFINITION. The state of the FBUS link engine: every element of spec/10_state.md R20, then the
model's own fields (the parameters, the pending inputs, the result words, the counters of the free
values), and the state after hardware reset (spec/70_reset_and_hazards.md R231). -/

namespace Sys2Proof.Machine

/-- One of the byte arrays of R60: the bytes written since reset, by index, indices strictly rising.
An index that is not listed holds no known byte (R76, log entry 6). -/
abbrev Memory := List Host.Cell

/-- The decoder's parse position (R23). -/
inductive DecState where
  | noFrame
  | frameMarkerRead
  | destinationRead
  | sourceRead
  | commandRead
  | lengthHighRead
  | lengthLowRead
  | payloadRead
  | paddingRead
  | evenChecksumRead
  | ready
  | error
deriving DecidableEq, Repr

/-- Why the decoder is in `error` (R27). -/
inductive DecErr where
  | none
  | checksum
  | length
deriving DecidableEq, Repr

/-- The session state (R32). -/
inductive LnkState where
  | off
  | waitingForPowerOn
  | ready
  | waitingForAcknowledge
  | waitingForResponse
  | responseReady
  | error
deriving DecidableEq, Repr

/-- Why the session entered `error` (R37, R201). -/
inductive LnkErr where
  | none
  | checksumMismatch
  | unexpectedCommand
  | timeout
  | lengthViolation
deriving DecidableEq, Repr

/-- A request to the timer service (R39, R81, R216, R217). -/
inductive TimerRequest where
  /-- start a one-shot of the given duration -/
  | start (duration : Nat)
  /-- cancel the one-shot, if any -/
  | stop
deriving DecidableEq, Repr

/-- One input of the environment (R40, R68). `slot` places an input of the producer or of the timer
inside a `LNK_POLL`: it falls there after so many further gaps between micro-steps; `none` is after
the operation before it (log entry 10). -/
inductive Request where
  /-- an operation word presented on a port (R90) -/
  | word (port : Port) (w : Word) (slot : Option Nat)
  /-- bytes arriving on the line, each presented by the producer as an `RB_WRITE` (R61, R96) -/
  | frame (bytes : List Byte) (slot : Option Nat)
  /-- the block's reset input (R230) -/
  | reset
deriving DecidableEq, Repr

/-- One answer of the block: the port and the result word (R93). -/
structure Result where
  port : Port
  word : Word
deriving DecidableEq, Repr

/-- The whole state. -/
structure State where
  /-- the parameters of R7 (R40: no register, but a parameter of the steps; no operation writes it, R233) -/
  cfg : Params
  /-- `rb_rd` (R21): read index, below `RB_CAP` -/
  rbRd : Nat
  /-- `rb_wr` (R21): write index, below `RB_CAP` -/
  rbWr : Nat
  /-- `RB` (R22) -/
  rb : Memory
  /-- `dec_state` (R23) -/
  decState : DecState
  /-- `dec_count` (R24) -/
  decCount : Half
  /-- `dec_ck_even` (R25) -/
  decCkEven : Byte
  /-- `dec_ck_odd` (R25) -/
  decCkOdd : Byte
  /-- `dec_cursor` (R26) -/
  decCursor : Half
  /-- `dec_err` (R27) -/
  decErr : DecErr
  /-- `rx_command` (R28) -/
  rxCommand : Byte
  /-- `rx_length` (R29) -/
  rxLength : Half
  /-- `RXP` (R30) -/
  rxp : Memory
  /-- `tx_len` (R31) -/
  txLen : Half
  /-- `TXP` (R31) -/
  txp : Memory
  /-- `lnk_state` (R32) -/
  lnkState : LnkState
  /-- `lnk_seq` (R33) -/
  lnkSeq : Nibble
  /-- `lnk_pending` (R34) -/
  lnkPending : Byte
  /-- `lnk_expected` (R34) -/
  lnkExpected : Byte
  /-- `tmr_armed` (R35) -/
  tmrArmed : Bool
  /-- `tmr_fired` (R35) -/
  tmrFired : Bool
  /-- `synchronized` (R36) -/
  synchronized : Bool
  /-- `lnk_err` (R37) -/
  lnkErr : LnkErr
  /-- `ACKB` (R38) -/
  ackb : Memory
  /-- `tx_stream` (R39): every byte handed to the transport, in order -/
  txStream : List Byte
  /-- `tmr_log` (R39): every request made to the timer service, in order -/
  tmrLog : List TimerRequest
  /-- the result words answered so far, in order (R93, R248) -/
  results : List Result
  /-- the inputs still to come, in the total order of R70 (the model's own field) -/
  requests : List Request
  /-- how many hardware resets there have been: argument of a free value (the model's own field) -/
  memEpoch : Nat
  /-- advances when the decoder takes a byte or is reset: argument of a free value (the model's own) -/
  rxGen : Nat
deriving DecidableEq, Repr

/-- The hardware never halts (R248) and no rule of the spec stops it: an error is a state of the
session (R206), an illegal word is answered (R94). So there is no reason for a fault, and this type
has no constructor. -/
inductive Fault where
deriving DecidableEq, Repr

/-- Why the model gives an instruction no meaning. -/
inductive Refusal where
  /-- Raised by `exec` alone, for an instruction without a meaning yet; safe. No arm raises it. -/
  | notModelled (mnemonic : String)
deriving DecidableEq, Repr

/-- The state after hardware reset with given parameters: R231, element by element. Every register has
the value R231 gives; no byte of a memory is known; nothing is pending. -/
def State.resetWith (p : Params) : State where
  cfg := p
  rbRd := 0
  rbWr := 0
  rb := []
  decState := .noFrame
  decCount := 0
  decCkEven := 0
  decCkOdd := 0
  decCursor := 0
  decErr := .none
  rxCommand := 0
  rxLength := 0
  rxp := []
  txLen := 0
  txp := []
  lnkState := .off
  lnkSeq := 0
  lnkPending := 0
  lnkExpected := 0
  tmrArmed := false
  tmrFired := false
  synchronized := false
  lnkErr := .none
  ackb := []
  txStream := []
  tmrLog := []
  results := []
  requests := []
  memEpoch := 0
  rxGen := 0

/-- The machine right after reset, with the parameters of the implementation (R231, R233). -/
def State.reset : State := State.resetWith Config.params

end Sys2Proof.Machine
end

