-- ==== Sys2Proof/Machine/Flags.lean ====
section
/-! DEFINITION. Conditions, flags and codes: the conditions of the ring, which are computed and not
stored (R43), the codes of the enumerations (R97), the flags register (R51) and the result word (R93). -/

namespace Sys2Proof.Machine

/-! ## The conditions of the ring -/

/-- The next value of a ring index: `(i + 1) mod RB_CAP` (R12, R111, R112). -/
def nextIndex (p : Params) (i : Nat) : Nat := (i + 1) % p.rbCap

/-- "full when advancing `write` would equal `read`" (R21). -/
def ringFull (s : State) : Bool := nextIndex s.cfg s.rbWr == s.rbRd

/-- "empty when `read == write`" (R21). -/
def ringEmpty (s : State) : Bool := s.rbRd == s.rbWr

/-- The number of bytes held: `(rb_wr - rb_rd) mod RB_CAP` (R21, R114). -/
def ringCount (s : State) : Nat := (s.rbWr + s.cfg.rbCap - s.rbRd) % s.cfg.rbCap

/-! ## Codes -/

/-- The codes of R23. -/
def DecState.code : DecState → BitVec 4
  | .noFrame => 0
  | .frameMarkerRead => 1
  | .destinationRead => 2
  | .sourceRead => 3
  | .commandRead => 4
  | .lengthHighRead => 5
  | .lengthLowRead => 6
  | .payloadRead => 7
  | .paddingRead => 8
  | .evenChecksumRead => 9
  | .ready => 10
  | .error => 11

/-- The codes of R27. -/
def DecErr.code : DecErr → BitVec 2
  | .none => 0
  | .checksum => 1
  | .length => 2

/-- The codes of R32. -/
def LnkState.code : LnkState → BitVec 3
  | .off => 0
  | .waitingForPowerOn => 1
  | .ready => 2
  | .waitingForAcknowledge => 3
  | .waitingForResponse => 4
  | .responseReady => 5
  | .error => 6

/-- The codes of R37. -/
def LnkErr.code : LnkErr → BitVec 3
  | .none => 0
  | .checksumMismatch => 1
  | .unexpectedCommand => 2
  | .timeout => 3
  | .lengthViolation => 4

/-- `Ready` and `Error`: the decoder takes no byte (R23, R133). -/
def DecState.terminal : DecState → Bool
  | .ready => true
  | .error => true
  | _ => false

/-- The three states in which a wait runs (R41 (e)). -/
def LnkState.waiting : LnkState → Bool
  | .waitingForPowerOn => true
  | .waitingForAcknowledge => true
  | .waitingForResponse => true
  | _ => false

/-- The states in which an expired timeout is ignored: `Ready`, `ResponseReady`, `Off` (R160). -/
def LnkState.ignoresTimeout : LnkState → Bool
  | .ready => true
  | .responseReady => true
  | .off => true
  | _ => false

/-! ## The flags register -/

/-- `LNK_FLAGS`: bit 0 `tmr_armed`, bit 1 `tmr_fired`, bit 2 `synchronized`, the others 0 (R51). -/
def lnkFlags (s : State) : Half :=
  (BitVec.ofBool s.synchronized ++ BitVec.ofBool s.tmrFired ++ BitVec.ofBool s.tmrArmed).setWidth 16

/-! ## The result word -/

/-- The status of a result word (R93). -/
inductive Status where
  | ok
  | full
  | empty
  | errLen
  | errIndex
  | illegalOp
deriving DecidableEq, Repr

/-- The status codes of R93. -/
def Status.code : Status → Byte
  | .ok => 0
  | .full => 1
  | .empty => 2
  | .errLen => 3
  | .errIndex => 4
  | .illegalOp => 5

/-- `Q[31:24]` = status, `Q[23:16]` = 0, `Q[15:0]` = value (R93). -/
def resultWord (st : Status) (value : Half) : Word := st.code ++ (0 : Byte) ++ value

/-- `NO_INPUT` (R97). -/
def noInput : Half := 0x00FF

/-- The value `DEC_STEP` returns: the state code after the step, or `NO_INPUT` where no byte was
available (R93, R121). -/
def decReturn : Option DecState → Half
  | some st => st.code.setWidth 16
  | none => noInput

/-- The session state code as the value of a result word (R93). -/
def lnkValue (st : LnkState) : Half := st.code.setWidth 16

end Sys2Proof.Machine
end

