-- ==== Sys2Proof/Machine/Operands.lean ====
section
/-! DEFINITION. Operand forms: the range checks of indices and lengths (R65, R141, R193), the sequence
marker (R86), and the registers that `REG_READ` names (R50). -/

namespace Sys2Proof.Machine

/-- An index operand of `TXB_WRITE`, `TXB_READ` or `RXB_READ` is in range (R65). -/
def indexOk (p : Params) (idx : Half) : Bool := decide (idx.toNat < p.maxPayload)

/-- A length operand of `TXB_SETLEN` is in range (R193). -/
def lengthOk (p : Params) (len : Half) : Bool := decide (len.toNat ≤ p.maxPayload)

/-- The received length is one the decoder accepts (R128). -/
def rxLengthOk (p : Params) (len : Half) : Bool :=
  decide (1 ≤ len.toNat) && decide (len.toNat ≤ p.maxPayload)

/-- The length check that precedes every frame sent: refused with `ERR_LEN` if this is true (R141). -/
def encodeRefused (p : Params) (cmd : Byte) (n : Nat) : Bool :=
  decide (n > p.maxPayload) || (cmd != p.ackCmd && n == 0)

/-- The sequence marker: `SEQ_FIRST` above a counter of 0, `SEQ_NEXT` above any other (R86, R143). -/
def sequenceMarker (p : Params) (seq : Nibble) : Byte :=
  (if seq = 0 then p.seqFirst else p.seqNext) ++ seq

/-- `b & 0x0F` (R146). -/
def lowNibble (b : Byte) : Byte := b &&& 0x0F

/-- A ring index as a register value: zero-extended to 16 bits (R50). One that 16 bits do not hold leaves
the value free (log entry 8). -/
def ringRegister (number : Byte) (value : Nat) : Half :=
  if value < 65536 then BitVec.ofNat 16 value else Config.wideRegister number value

/-- The register with a given number, zero-extended to 16 bits; none for a reserved number (R50). -/
def register (n : Byte) (s : State) : Option Half :=
  match n.toNat with
  | 0 => some (ringRegister n s.rbRd)
  | 1 => some (ringRegister n s.rbWr)
  | 2 => some (s.decState.code.setWidth 16)
  | 3 => some s.decCount
  | 4 => some (s.decCkEven.setWidth 16)
  | 5 => some (s.decCkOdd.setWidth 16)
  | 6 => some s.decCursor
  | 7 => some (s.decErr.code.setWidth 16)
  | 8 => some (s.rxCommand.setWidth 16)
  | 9 => some s.rxLength
  | 10 => some s.txLen
  | 11 => some (s.lnkState.code.setWidth 16)
  | 12 => some (s.lnkSeq.setWidth 16)
  | 13 => some (s.lnkPending.setWidth 16)
  | 14 => some (s.lnkExpected.setWidth 16)
  | 15 => some (lnkFlags s)
  | 16 => some (s.lnkErr.code.setWidth 16)
  | 17 => some (ringRegister n (ringCount s))
  | _ => none

end Sys2Proof.Machine
end

