-- ==== Sys2Proof/Machine/Ops.lean ====
section
/-! DEFINITION. The named operations that the meanings share: the byte memories (R60, R66), the outputs
(R63, R216, R217), the answer of a port (R93), the decoder's reset (R134), the entry into the session's
`Error` state and the way out of it (R206, R208), and hardware reset (R230). -/

namespace Sys2Proof.Machine

/-! ## Byte memories -/

/-- The canonical form: indices strictly rising. -/
def Memory.wf : Memory → Bool
  | [] => true
  | [_] => true
  | c :: d :: m => decide (c.1 < d.1) && Memory.wf (d :: m)

/-- The byte written last at an index, none if no byte has been written there since reset. -/
def Memory.read : Memory → Nat → Option Byte
  | [], _ => none
  | (a, b) :: m, i => if a = i then some b else Memory.read m i

/-- One byte written (R66). -/
def Memory.write : Memory → Nat → Byte → Memory
  | [], i, v => [(i, v)]
  | (a, b) :: m, i, v =>
    if i < a then (i, v) :: (a, b) :: m
    else if i = a then (i, v) :: m
    else (a, b) :: Memory.write m i v

/-- The array of a space (R60). -/
def State.mem (s : State) : Space → Memory
  | .rb => s.rb
  | .rxp => s.rxp
  | .txp => s.txp
  | .ackb => s.ackb

/-- The state with the array of a space replaced. -/
def State.setMem (s : State) (sp : Space) (m : Memory) : State :=
  match sp with
  | .rb => { s with rb := m }
  | .rxp => { s with rxp := m }
  | .txp => { s with txp := m }
  | .ackb => { s with ackb := m }

/-- `MemRead(space, i, 1)` (R10): "some write put there (or the unspecified initial content)" (R66). -/
def memRead (sp : Space) (i : Nat) (s : State) : Byte :=
  ((s.mem sp).read i).getD (Config.initialByte s.memEpoch sp i)

/-- `MemWrite(space, i, 1, v)` (R10). -/
def memWrite (sp : Space) (i : Nat) (v : Byte) (s : State) : State :=
  s.setMem sp ((s.mem sp).write i v)

/-- The first `n` bytes of a space, by index. -/
def memBytes (sp : Space) (n : Nat) (s : State) : List Byte :=
  (List.range n).map fun i => memRead sp i s

/-! ## Outputs and answers -/

/-- `TxEmit` of each of these bytes, in order (R10, R63). -/
def txEmit (bs : List Byte) (s : State) : State :=
  { s with txStream := s.txStream ++ bs }

/-- `TimerStart()` (R216). -/
def timerStart (s : State) : State :=
  { s with
    tmrArmed := true
    tmrFired := false
    tmrLog := s.tmrLog ++ [.start s.cfg.timeoutDuration] }

/-- `TimerStop()` (R217). -/
def timerStop (s : State) : State :=
  { s with
    tmrArmed := false
    tmrFired := false
    tmrLog := s.tmrLog ++ [.stop] }

/-- `return (status, value)` on a port: the result word (R10, R93). -/
def answer (p : Port) (st : Status) (value : Half) (s : State) : State :=
  { s with results := s.results ++ [⟨p, resultWord st value⟩] }

/-- An illegal word, or a legal word on a port that does not take it: "status `ILLEGAL_OP`, value 0,
and changes no state, emits nothing and makes no timer request" (R94). -/
def answerIllegal (p : Port) (s : State) : State := answer p .illegalOp 0 s

/-! ## The decoder's reset -/

/-- `DecReset()` (R134): every decoder register "reset to empty/zero"; neither `RXP` nor the ring is
written. The content of `RXP` becomes unspecified to the host, hence the new generation. -/
def decReset (s : State) : State :=
  { s with
    decState := .noFrame
    decCount := 0
    decCkEven := 0
    decCkOdd := 0
    decCursor := 0
    decErr := .none
    rxCommand := 0
    rxLength := 0
    rxGen := s.rxGen + 1 }

/-! ## Entering and leaving the session's Error state -/

/-- The kind is recorded and the session is in `Error`: the last two lines of R206. The first cause is
kept (R37). -/
def recordError (kind : LnkErr) (s : State) : State :=
  { s with
    lnkErr := if s.lnkState = .error then s.lnkErr else kind
    lnkState := .error }

/-- `enter_error(kind)`, "the one way into session state `Error`" (R206). It takes the place of an
exception's entry: nothing is vectored and nothing but the kind is saved. -/
def enterError (kind : LnkErr) (s : State) : State :=
  recordError kind (decReset (timerStop s))

/-- The session registers that a reinitialisation clears (R156). -/
def clearSession (s : State) : State :=
  { s with
    lnkState := .off
    lnkSeq := 0
    lnkPending := 0
    lnkExpected := 0
    lnkErr := .none }

/-- The reinitialisation of the session, the way out of `Error` (R156, R208): it restores nothing,
"because nothing was saved". -/
def sessionInit (s : State) : State :=
  clearSession (decReset (timerStop s))

/-! ## Hardware reset -/

/-- The block's reset input (R230, R231): every register at its reset value, the memories and the
unspecified receive bytes unknown anew, the parameters kept (R233). Inputs that have not come yet are
still to come. -/
def hardwareReset (s : State) : State :=
  { State.resetWith s.cfg with
    requests := s.requests
    memEpoch := s.memEpoch + 1
    rxGen := s.rxGen + 1 }

end Sys2Proof.Machine
end

