-- ==== Sys2Proof/Machine/Access.lean ====
section
/-! DEFINITION. The access operations (spec/44_access_ops.md): NOP, REG_READ, TXB_WRITE, TXB_SETLEN,
TXB_READ, RXB_READ. -/

namespace Sys2Proof.Machine

/-- NOP (R190): "Changes nothing". -/
def execNop (s : State) : Host.Outcome State Fault Refusal :=
  .next (answer .host .ok 0 s)

/-- REG_READ (R191): the register's value, or `ERR_INDEX` for a reserved number. -/
def execRegRead (n : Byte) (s : State) : Host.Outcome State Fault Refusal :=
  .next
    (match register n s with
     | some v => answer .host .ok v s
     | none => answer .host .errIndex 0 s)

/-- TXB_WRITE (R192): one byte of `TXP`; `tx_len` is neither changed nor consulted. -/
def execTxbWrite (idx : Half) (b : Byte) (s : State) : Host.Outcome State Fault Refusal :=
  .next
    (if indexOk s.cfg idx then answer .host .ok 0 (memWrite .txp idx.toNat b s)
     else answer .host .errIndex 0 s)

/-- TXB_SETLEN (R193): `len = 0` is accepted here. -/
def execTxbSetlen (len : Half) (s : State) : Host.Outcome State Fault Refusal :=
  .next
    (if lengthOk s.cfg len then answer .host .ok 0 { s with txLen := len }
     else answer .host .errLen 0 s)

/-- TXB_READ (R194): the byte last written there; one never written is unspecified (R76). -/
def execTxbRead (idx : Half) (s : State) : Host.Outcome State Fault Refusal :=
  .next
    (if indexOk s.cfg idx then answer .host .ok ((memRead .txp idx.toNat s).setWidth 16) s
     else answer .host .errIndex 0 s)

/-- "The value is defined when `dec_state` is 6 to 10 and `idx < dec_cursor`" (R195). -/
def rxDefined (idx : Half) (s : State) : Bool :=
  decide (6 ≤ s.decState.code.toNat) && decide (s.decState.code.toNat ≤ 10) &&
    decide (idx.toNat < s.decCursor.toNat)

/-- The byte that `RXB_READ` of an index in range answers (R76, R195). -/
def rxByte (idx : Half) (s : State) : Byte :=
  if rxDefined idx s then memRead .rxp idx.toNat s else Config.unspecifiedRx s.rxGen idx.toNat

/-- RXB_READ (R195): the status is `OK` for every index in range, whether or not the value is defined. -/
def execRxbRead (idx : Half) (s : State) : Host.Outcome State Fault Refusal :=
  .next
    (if indexOk s.cfg idx then answer .host .ok ((rxByte idx s).setWidth 16) s
     else answer .host .errIndex 0 s)

end Sys2Proof.Machine
end

