-- ==== Sys2Proof/Machine/RingBuffer.lean ====
section
/-! DEFINITION. The ring buffer operations (spec/40_ring_buffer.md): RB_WRITE, RB_READ, RB_CLEAR, the
ring read that DEC_STEP shares (R110), and the feed of several received bytes (R96). -/

namespace Sys2Proof.Machine

/-- The byte stored and the write index advanced (R111). -/
def ringPush (b : Byte) (s : State) : State :=
  { memWrite .rb s.rbWr b s with rbWr := nextIndex s.cfg s.rbWr }

/-- `RB_WRITE b` as the producer presents it: "queue one received byte, or report `FULL`" (R111). -/
def rbWriteOp (b : Byte) (s : State) : State :=
  if ringFull s then answer .producer .full 0 s
  else answer .producer .ok 0 (ringPush b s)

/-- The byte at the read index (R112). -/
def ringFront (s : State) : Byte := memRead .rb s.rbRd s

/-- The read index advanced (R112). -/
def ringPop (s : State) : State :=
  { s with rbRd := nextIndex s.cfg s.rbRd }

/-- Each byte presented once as an `RB_WRITE`, in order: `rx.feed` (R61, R96). -/
def feed (bs : List Byte) (s : State) : State :=
  bs.foldl (fun t b => rbWriteOp b t) s

/-- RB_WRITE (R111). -/
def execRbWrite (b : Byte) (s : State) : Host.Outcome State Fault Refusal :=
  .next (rbWriteOp b s)

/-- RB_READ (R112): "dequeue one byte, or report `EMPTY`". -/
def execRbRead (s : State) : Host.Outcome State Fault Refusal :=
  .next
    (if ringEmpty s then answer .host .empty 0 s
     else answer .host .ok ((ringFront s).setWidth 16) (ringPop s))

/-- RB_CLEAR (R113): both indices 0, the storage not written. -/
def execRbClear (s : State) : Host.Outcome State Fault Refusal :=
  .next (answer .host .ok 0 { s with rbRd := 0, rbWr := 0 })

end Sys2Proof.Machine
end

