-- ==== Sys2Proof/Machine/Decoder.lean ====
section
/-! DEFINITION. The decoder operations (spec/41_decoder.md): the accumulate step (R122), the effect of
one byte in each state (R123 to R132), DEC_STEP (R121, R133) and DEC_RESET (R134). -/

namespace Sys2Proof.Machine

/-- One more byte of the frame consumed: `dec_count <- (dec_count + 1) mod 65536`. -/
def countByte (s : State) : State := { s with decCount := s.decCount + 1 }

/-- `Accumulate(b)` (R122): the byte is XORed into the checksum that the parity of its position picks,
"position is tracked by `bytes_consumed` before increment". -/
def accumulate (b : Byte) (s : State) : State :=
  countByte
    (if s.decCount.getLsbD 0 then { s with decCkOdd := s.decCkOdd ^^^ b }
     else { s with decCkEven := s.decCkEven ^^^ b })

/-- The decoder's own `Error` state with its cause (R27, R202). -/
def decFail (cause : DecErr) (s : State) : State :=
  { s with decErr := cause, decState := .error }

/-- The length low byte (R128): the length composed, the cursor reset, the length tested. -/
def decLengthLow (b : Byte) (s : State) : State :=
  let len := lengthOf (s.rxLength.extractLsb' 8 8) b
  let t := { accumulate b s with rxLength := len, decCursor := 0 }
  if rxLengthOk s.cfg len then { t with decState := .lengthLowRead } else decFail .length t

/-- A payload byte (R129): stored at the cursor, the cursor advanced; after the last one an even
length advances twice, since no padding byte is expected. -/
def decPayload (b : Byte) (s : State) : State :=
  let t := { memWrite .rxp s.decCursor.toNat b (accumulate b s) with decCursor := s.decCursor + 1 }
  if s.decCursor + 1 = s.rxLength then
    { t with decState := if s.rxLength.getLsbD 0 then .payloadRead else .paddingRead }
  else t

/-- A checksum byte (R131, R132): counted, not accumulated, compared. -/
def decChecksum (b expected : Byte) (next : DecState) (s : State) : State :=
  if b = expected then { countByte s with decState := next } else decFail .checksum (countByte s)

/-- The effect of one byte taken from the ring, by the decoder's state (R123 to R132). -/
def decConsume (b : Byte) (s : State) : State :=
  match s.decState with
  | .noFrame =>
    if b = s.cfg.frameMarker then { accumulate b s with decState := .frameMarkerRead } else s
  | .frameMarkerRead => { accumulate b s with decState := .destinationRead }
  | .destinationRead => { accumulate b s with decState := .sourceRead }
  | .sourceRead => { accumulate b s with rxCommand := b, decState := .commandRead }
  | .commandRead => { accumulate b s with rxLength := lengthOf b 0x00, decState := .lengthHighRead }
  | .lengthHighRead => decLengthLow b s
  | .lengthLowRead => decPayload b s
  | .payloadRead => { accumulate b s with decState := .paddingRead }
  | .paddingRead => decChecksum b s.decCkEven .evenChecksumRead s
  | .evenChecksumRead => decChecksum b s.decCkOdd .ready s
  | .ready => s
  | .error => s

/-- The unspecified bytes of `RXP` may differ from now on (log entry 7). -/
def renewRx (s : State) : State := { s with rxGen := s.rxGen + 1 }

/-- `DecStep()` (R121): the state after the step, and the state code it returns, none for `NO_INPUT`.
A terminal state takes no byte (R133). -/
def decStepOp (s : State) : State × Option DecState :=
  if s.decState.terminal then (s, some s.decState)
  else if ringEmpty s then (s, none)
  else
    let t := renewRx (decConsume (ringFront s) (ringPop s))
    (t, some t.decState)

/-- DEC_STEP (R121): "The status is always `OK`; the decoder's verdict is in the value." -/
def execDecStep (s : State) : Host.Outcome State Fault Refusal :=
  .next
    (let q := decStepOp s
     answer .host .ok (decReturn q.2) q.1)

/-- DEC_RESET (R134). -/
def execDecReset (s : State) : Host.Outcome State Fault Refusal :=
  .next (answer .host .ok 0 (decReset s))

end Sys2Proof.Machine
end

