-- ==== Sys2Proof/Machine/Encoder.lean ====
section
/-! DEFINITION. The encoder (spec/42_encoder.md): the length check is `encodeRefused` (R141); then the
one-time preamble (R142), the sequence injection (R143), the emission (R144), the acknowledgement (R146),
and ENC_FRAME (R145). -/

namespace Sys2Proof.Machine

/-- The training preamble, "the very first frame ever sent" alone (R142). -/
def sendPreamble (s : State) : State :=
  if s.synchronized then s
  else { txEmit (List.replicate s.cfg.syncCount s.cfg.syncByte) s with synchronized := true }

/-- The sequence marker written over the last byte of the buffer and the counter advanced, for every
command but the acknowledgement (R143). -/
def injectSequence (cmd : Byte) (buf : Space) (n : Nat) (s : State) : State :=
  if cmd = s.cfg.ackCmd then s
  else { memWrite buf (n - 1) (sequenceMarker s.cfg s.lnkSeq) s with lnkSeq := s.lnkSeq + 1 }

/-- The six header bytes that are sent (R144). -/
def headerBytes (p : Params) (cmd : Byte) (n : Nat) : List Byte :=
  [p.frameMarker, p.addrDest, p.addrSrc, cmd, lengthHigh (BitVec.ofNat 16 n),
    lengthLow (BitVec.ofNat 16 n)]

/-- The payload loop's two checksums: payload byte `i` goes to `ce` if `i` is even, else to `co` (R144). -/
def sumPayload : List Byte → Nat → Byte × Byte → Byte × Byte
  | [], _, c => c
  | v :: vs, i, c => sumPayload vs (i + 1) (if i % 2 = 0 then (c.1 ^^^ v, c.2) else (c.1, c.2 ^^^ v))

/-- The checksums as the header bytes seed them: three bytes into each (R144, conflict C1). -/
def seedSums (p : Params) (cmd : Byte) (n : Nat) : Byte × Byte :=
  (p.frameMarker ^^^ p.addrSrc ^^^ lengthHigh (BitVec.ofNat 16 n),
    p.addrDest ^^^ cmd ^^^ lengthLow (BitVec.ofNat 16 n))

/-- The bytes of one emission: header, payload, padding if the length is odd, even and odd checksum
(R144). -/
def emission (p : Params) (cmd : Byte) (payload : List Byte) : List Byte :=
  let c := sumPayload payload 0 (seedSums p cmd payload.length)
  headerBytes p cmd payload.length ++ payload ++ paddingOf payload ++ [c.1, c.2]

/-- The frame of the first `n` bytes of a buffer handed to the transport (R144). -/
def emitFrame (cmd : Byte) (buf : Space) (n : Nat) (s : State) : State :=
  txEmit (emission s.cfg cmd (memBytes buf n s)) s

/-- `Encode(cmd, BUF, n)` after its length check has passed (R140). -/
def encodeAndSend (cmd : Byte) (buf : Space) (n : Nat) (s : State) : State :=
  emitFrame cmd buf n (injectSequence cmd buf n (sendPreamble s))

/-- The payload of an acknowledgement built in `ACKB` (R146). -/
def buildAck (s : State) : State :=
  memWrite .ackb 1 (lowNibble (memRead .rxp (s.rxLength.toNat - 1) s)) (memWrite .ackb 0 s.rxCommand s)

/-- `SendAck()` (R146): it acknowledges the frame now in the decoder. -/
def sendAck (s : State) : State :=
  encodeAndSend s.cfg.ackCmd .ackb 2 (buildAck s)

/-- ENC_FRAME (R145): refused with `ERR_LEN` and nothing changed (R141), or the frame sent. -/
def execEncFrame (cmd : Byte) (s : State) : Host.Outcome State Fault Refusal :=
  .next
    (if encodeRefused s.cfg cmd s.txLen.toNat then answer .host .errLen 0 s
     else answer .host .ok 0 (encodeAndSend cmd .txp s.txLen.toNat s))

end Sys2Proof.Machine
end

