-- ==== Sys2Proof/Machine/Timer.lean ====
section
/-! DEFINITION. The timer service's expiry callback (spec/43_link.md R168). -/

namespace Sys2Proof.Machine

/-- `TMR_EXPIRE` as the timer service presents it: it "must only set a flag observed by the next poll"
(R168). -/
def tmrExpireOp (s : State) : State :=
  answer .timer .ok 0 (if s.tmrArmed then { s with tmrFired := true } else s)

/-- TMR_EXPIRE (R168). -/
def execTmrExpire (s : State) : Host.Outcome State Fault Refusal :=
  .next (tmrExpireOp s)

end Sys2Proof.Machine
end

