-- ==== Sys2Proof/Machine/Events.lean ====
section
/-! DEFINITION. The inputs of the producer and of the timer that fall between two micro-steps of a
LNK_POLL (spec/20_memory.md R68). -/

namespace Sys2Proof.Machine

/-- A word on the producer or timer port, taken between two micro-steps: the one operation that the port
takes, or `ILLEGAL_OP` (R81, R94). -/
def takeEventWord (p : Port) (w : Word) (s : State) : State :=
  match decodeWord w with
  | .ok (.rbWrite b) => if p = .producer then rbWriteOp b s else answerIllegal p s
  | .ok .tmrExpire => if p = .timer then tmrExpireOp s else answerIllegal p s
  | _ => answerIllegal p s

/-- The inputs at the head of a list that fall into this gap are taken, in order; the list that is left
becomes the inputs still to come. One more gap has passed for the input that comes next. An input of the
host, and an input without a slot, waits for the end of the operation. -/
def takeEvents : List Request → State → State
  | [], s => { s with requests := [] }
  | .word .producer w (some 0) :: rest, s => takeEvents rest (takeEventWord .producer w s)
  | .word .timer w (some 0) :: rest, s => takeEvents rest (takeEventWord .timer w s)
  | .frame bs (some 0) :: rest, s => takeEvents rest (feed bs s)
  | .word .producer w (some (k + 1)) :: rest, s =>
    { s with requests := .word .producer w (some k) :: rest }
  | .word .timer w (some (k + 1)) :: rest, s => { s with requests := .word .timer w (some k) :: rest }
  | .frame bs (some (k + 1)) :: rest, s => { s with requests := .frame bs (some k) :: rest }
  | r :: rest, s => { s with requests := r :: rest }

/-- A gap between two micro-steps of a `LNK_POLL`: "producer and timer events may fall between
micro-steps" (R159). -/
def gap (s : State) : State := takeEvents s.requests s

/-- How many bytes an input can queue. -/
def Request.byteCount : Request → Nat
  | .word _ _ _ => 1
  | .frame bs _ => bs.length
  | .reset => 0

/-- A bound on the bytes that the ring holds or can still be given by pending inputs. -/
def bytesInSight (s : State) : Nat := ringCount s + (s.requests.map Request.byteCount).sum

end Sys2Proof.Machine
end

