-- ==== Sys2Proof/Machine/Link.lean ====
section
/-! DEFINITION. The link state machine (spec/43_link.md): LNK_INIT (R156), LNK_POWER_ON in its two forms
(R157), LNK_SEND (R158), and LNK_POLL with its three parts (R159 to R167). -/

namespace Sys2Proof.Machine

/-- LNK_INIT (R156): allowed in every state. -/
def execLnkInit (s : State) : Host.Outcome State Fault Refusal :=
  .next (answer .host .ok (lnkValue .off) (sessionInit s))

/-- LNK_POWER_ON with `tx = 0` (R157): nothing is sent and `lnk_pending` keeps its value. -/
def execLnkPowerOn (s : State) : Host.Outcome State Fault Refusal :=
  .next (answer .host .ok (lnkValue .waitingForPowerOn)
    (timerStart { decReset s with lnkState := .waitingForPowerOn }))

/-- The actions of an accepted LNK_POWER_ON with `tx = 1` (R157). -/
def powerOnTx (cmd : Byte) (s : State) : State :=
  timerStart
    { encodeAndSend cmd .txp s.txLen.toNat (decReset s) with
      lnkPending := cmd
      lnkState := .waitingForPowerOn }

/-- LNK_POWER_ON with `tx = 1` (R157): refused with `ERR_LEN`, the session state as value and nothing
changed, or the frame sent and the wait begun. -/
def execLnkPowerOnTx (cmd : Byte) (s : State) : Host.Outcome State Fault Refusal :=
  .next
    (if encodeRefused s.cfg cmd s.txLen.toNat then answer .host .errLen (lnkValue s.lnkState) s
     else answer .host .ok (lnkValue .waitingForPowerOn) (powerOnTx cmd s))

/-- The actions of an accepted LNK_SEND (R158), in the source's order. -/
def sendCommand (cmd exp : Byte) (s : State) : State :=
  timerStart
    { encodeAndSend cmd .txp s.txLen.toNat (decReset s) with
      lnkPending := cmd
      lnkExpected := exp
      lnkState := .waitingForAcknowledge }

/-- LNK_SEND (R158): no guard on the session state (R172). -/
def execLnkSend (cmd exp : Byte) (s : State) : Host.Outcome State Fault Refusal :=
  .next
    (if encodeRefused s.cfg cmd s.txLen.toNat then answer .host .errLen (lnkValue s.lnkState) s
     else answer .host .ok (lnkValue .waitingForAcknowledge) (sendCommand cmd exp s))

/-! ## LNK_POLL -/

/-- Part 1 finds a pending timeout that moves the session to `Error` (R160). -/
def timeoutEnds (s : State) : Bool := s.tmrFired && !s.lnkState.ignoresTimeout

/-- Part 1 where it does not end the operation: an expiry found in `Ready`, `ResponseReady` or `Off` is
consumed and ignored (R160). -/
def consumeExpiry (s : State) : State := if s.tmrFired then timerStop s else s

/-- Part 2, the pull loop, with a gap after each micro-step (R159, R161). The first argument bounds the
number of micro-steps; `pollFuel` is always enough. -/
def pullLoop : Nat → State → State × Option DecState
  | 0, s => (s, none)
  | fuel + 1, s =>
    match decStepOp s with
    | (t, none) => (gap t, none)
    | (t, some .ready) => (gap t, some .ready)
    | (t, some .error) => (gap t, some .error)
    | (t, some _) => pullLoop fuel (gap t)

/-- Enough micro-steps for every byte in sight and the step that finds none. -/
def pollFuel (s : State) : Nat := bytesInSight s + 1

/-- The kind of error a failed frame gives the session (R162). -/
def frameErrorKind (cause : DecErr) : LnkErr :=
  if cause = .length then .lengthViolation else .checksumMismatch

/-- A verified frame in `WaitingForPowerOn` (R163). -/
def onFramePowerOn (s : State) : State :=
  if s.rxCommand = s.cfg.pwronDoneCmd then { timerStop s with lnkState := .ready }
  else decReset s

/-- A verified frame in `WaitingForAcknowledge` (R164). -/
def onFrameAcknowledge (s : State) : State :=
  if s.rxCommand = s.cfg.ackCmd then
    if memRead .rxp 0 s = s.lnkPending then
      { timerStart (decReset s) with lnkState := .waitingForResponse }
    else enterError .unexpectedCommand s
  else timerStart (decReset (sendAck s))

/-- A verified frame in `WaitingForResponse` (R165). -/
def onFrameResponse (s : State) : State :=
  if s.rxCommand = s.lnkExpected then { timerStop (sendAck s) with lnkState := .responseReady }
  else enterError .unexpectedCommand s

/-- A verified frame, by the session state (R163 to R167). -/
def onFrame (s : State) : State :=
  match s.lnkState with
  | .off => s
  | .waitingForPowerOn => onFramePowerOn s
  | .ready => s
  | .waitingForAcknowledge => onFrameAcknowledge s
  | .waitingForResponse => onFrameResponse s
  | .responseReady => timerStop s
  | .error => s

/-- Part 3 (R159): nothing without a frame, the error entry for a bad frame (R162), the dispatch for a
verified one. -/
def pollFinish (r : Option DecState) (s : State) : State :=
  match r with
  | some .error => enterError (frameErrorKind s.decErr) s
  | some .ready => onFrame s
  | _ => s

/-- The three parts of LNK_POLL (R159), up to its result word. -/
def pollOp (s : State) : State :=
  if timeoutEnds s then enterError .timeout s
  else
    let t := gap (consumeExpiry s)
    let q := pullLoop (pollFuel t) t
    pollFinish q.2 q.1

/-- LNK_POLL (R159): `return (OK, lnk_state)`, the state after the operation. -/
def execLnkPoll (s : State) : Host.Outcome State Fault Refusal :=
  .next
    (let t := pollOp s
     answer .host .ok (lnkValue t.lnkState) t)

end Sys2Proof.Machine
end

