-- ==== Sys2Proof/Machine/Wire.lean ====
section
/-! DEFINITION. The wire frames of the opcode table as the block receives them (R61, R62): "each arriving
byte is presented once on the producer port as an `RB_WRITE`". What the decoder and the link then do with
the bytes is DEC_STEP's and LNK_POLL's meaning; a frame does not act on the session by itself
(R68, R204; log entry 11). -/

namespace Sys2Proof.Machine

/-- WIRE.ACK (R87): an acknowledgement frame arrives; LNK_POLL handles it by R164. -/
def execWireAck (dest src acked : Byte) (seq : Nibble) (s : State) : Host.Outcome State Fault Refusal :=
  .next (feed (frameBytes s.cfg dest src s.cfg.ackCmd (ackPayload acked seq)) s)

/-- WIRE.PWRON_DONE (R88): a power-on completion frame arrives; LNK_POLL handles it by R163. -/
def execWirePwronDone (dest src : Byte) (payload : List Byte) (s : State) :
    Host.Outcome State Fault Refusal :=
  .next (feed (frameBytes s.cfg dest src s.cfg.pwronDoneCmd payload) s)

/-- WIRE.DATA (R82): an ordinary frame arrives; LNK_POLL handles it by R163 to R167. -/
def execWireData (dest src cmd : Byte) (payload : List Byte) (s : State) :
    Host.Outcome State Fault Refusal :=
  .next (feed (frameBytes s.cfg dest src cmd payload) s)

end Sys2Proof.Machine
end

