-- ==== Sys2Proof/Machine/Dispatch.lean ====
section
/-! DEFINITION. The dispatch: one arm per constructor of Instr. -/

namespace Sys2Proof.Machine

def exec (i : Instr) (s : State) : Host.Outcome State Fault Refusal :=
  match i with
  | .nop => Sys2Proof.Machine.execNop s
  | .rbWrite b => Sys2Proof.Machine.execRbWrite b s
  | .rbRead => Sys2Proof.Machine.execRbRead s
  | .rbClear => Sys2Proof.Machine.execRbClear s
  | .decStep => Sys2Proof.Machine.execDecStep s
  | .decReset => Sys2Proof.Machine.execDecReset s
  | .encFrame cmd => Sys2Proof.Machine.execEncFrame cmd s
  | .txbWrite idx b => Sys2Proof.Machine.execTxbWrite idx b s
  | .txbSetlen len => Sys2Proof.Machine.execTxbSetlen len s
  | .txbRead idx => Sys2Proof.Machine.execTxbRead idx s
  | .rxbRead idx => Sys2Proof.Machine.execRxbRead idx s
  | .regRead n => Sys2Proof.Machine.execRegRead n s
  | .lnkInit => Sys2Proof.Machine.execLnkInit s
  | .lnkPowerOn => Sys2Proof.Machine.execLnkPowerOn s
  | .lnkPowerOnTx cmd => Sys2Proof.Machine.execLnkPowerOnTx cmd s
  | .lnkSend cmd exp => Sys2Proof.Machine.execLnkSend cmd exp s
  | .lnkPoll => Sys2Proof.Machine.execLnkPoll s
  | .tmrExpire => Sys2Proof.Machine.execTmrExpire s
  | .wireAck dest src acked seq => Sys2Proof.Machine.execWireAck dest src acked seq s
  | .wirePwronDone dest src payload => Sys2Proof.Machine.execWirePwronDone dest src payload s
  | .wireData dest src cmd payload => Sys2Proof.Machine.execWireData dest src cmd payload s

end Sys2Proof.Machine
end

