-- ==== Sys2Proof/Machine/Fetch.lean ====
section
/-! DEFINITION. What the block finds at its ports: the next input of the environment and what it stands
for (R81, R94, R234). -/

namespace Sys2Proof.Machine

/-- The next thing a step does. -/
inductive Action where
  /-- no input is pending: the block waits (R234) -/
  | wait
  /-- a legal word on a port that takes it, or a frame of the opcode table on the line -/
  | run (i : Instr)
  /-- an illegal word, or a legal word on a port that does not take it (R94) -/
  | illegal (p : Port)
  /-- bytes on the line that are no frame of the opcode table (R89) -/
  | bytes (bs : List Byte)
  /-- the reset input (R230) -/
  | reset
deriving DecidableEq, Repr

/-- What a word on a port asks for (R81, R94). -/
def actionOfWord (p : Port) (w : Word) : Action :=
  match decodeWord w with
  | .ok i => if i.port = p then .run i else .illegal p
  | .error _ => .illegal p

/-- What bytes on the line ask for: their effect is that of their bytes, whether or not they are a frame
of the table (R61, R89). -/
def actionOfFrame (cfg : Params) (bs : List Byte) : Action :=
  match decodeFrame cfg bs with
  | .ok i => .run i
  | .error _ => .bytes bs

/-- What an input asks for. -/
def actionOf (cfg : Params) : Request → Action
  | .word p w _ => actionOfWord p w
  | .frame bs _ => actionOfFrame cfg bs
  | .reset => .reset

/-- The next action and the state once its input has been taken. -/
def fetch (s : State) : Action × State :=
  match s.requests with
  | [] => (.wait, s)
  | r :: rest => (actionOf s.cfg r, { s with requests := rest })

/-- The port on which an operation word is presented to run: the one that takes it, and the host's for a
word that is no operation (R81). -/
def portOfWord (w : Word) : Port :=
  match decodeWord w with
  | .ok i => i.port
  | .error _ => .host

/-- The input that presents what stands in a table row's bits. -/
def requestOf : Encoded → Request
  | .word w => .word (portOfWord w) w none
  | .frame bs => .frame bs none

end Sys2Proof.Machine
end

