-- ==== Sys2Proof/Machine/Step.lean ====
section
/-! DEFINITION. One step: the next input of the environment is taken and answered (R68, R70). -/

namespace Sys2Proof.Machine

/-- One step of the machine. -/
def step (s : State) : Host.Outcome State Fault Refusal :=
  match fetch s with
  | (.wait, t) => .next t
  | (.run i, t) => exec i t
  | (.illegal p, t) => .next (answerIllegal p t)
  | (.bytes bs, t) => .next (feed bs t)
  | (.reset, t) => .next (hardwareReset t)

/-- The state with the encoded instruction presented next, on the port that takes it. -/
def State.withFetchWord (s : State) (nbits w : Nat) : State :=
  { s with requests := requestOf (encodedOfTable nbits w) :: s.requests }

end Sys2Proof.Machine
end

