-- ==== Sys2Proof/Safety.lean ====
section
/-! DEFINITION. The terms in which claims about runs are made: the invariants of spec/10_state.md R41 and
the contract that the host keeps (spec/70_reset_and_hazards.md R236). -/

namespace Sys2Proof.Machine

/-- R41 (a): in `NoFrame` every decoder register is 0. -/
abbrev decIdleOk (s : State) : Prop :=
  s.decState = .noFrame →
    s.decCount = 0 ∧ s.decCkEven = 0 ∧ s.decCkOdd = 0 ∧ s.decCursor = 0 ∧ s.rxCommand = 0 ∧
      s.rxLength = 0 ∧ s.decErr = .none

/-- R41 (b): `dec_err != 0` exactly when `dec_state == Error`. -/
abbrev decErrOk (s : State) : Prop := s.decErr ≠ .none ↔ s.decState = .error

/-- R41 (c): length and cursor in states 6 to 10. -/
abbrev decLengthOk (s : State) : Prop :=
  (6 ≤ s.decState.code.toNat → s.decState.code.toNat ≤ 10 →
      1 ≤ s.rxLength.toNat ∧ s.rxLength.toNat ≤ s.cfg.maxPayload ∧
        s.decCursor.toNat ≤ s.rxLength.toNat) ∧
    (s.decState = .lengthLowRead → s.decCursor.toNat < s.rxLength.toNat) ∧
    (7 ≤ s.decState.code.toNat → s.decState.code.toNat ≤ 10 → s.decCursor = s.rxLength)

/-- R41 (d), (e): a fired timeout is armed, an armed timeout belongs to a wait. -/
abbrev timerOk (s : State) : Prop :=
  (s.tmrFired = true → s.tmrArmed = true) ∧ (s.tmrArmed = true → s.lnkState.waiting = true)

/-- R41 (f), the half that holds whatever the host does: `Error` has a cause. -/
abbrev errorCauseOk (s : State) : Prop := s.lnkState = .error → s.lnkErr ≠ .none

/-- R21: both indices in `0..RB_CAP-1`; the parameters meet R8. -/
abbrev ringOk (s : State) : Prop :=
  s.cfg.ok = true ∧ s.rbRd < s.cfg.rbCap ∧ s.rbWr < s.cfg.rbCap

/-- Every listed index of a memory is below its size (R60). -/
def Memory.below (m : Memory) (size : Nat) : Bool := m.all fun c => decide (c.1 < size)

/-- The four memories are in canonical form and within their sizes (R60); `tx_len` is in range (R193). -/
abbrev memoryOk (s : State) : Prop :=
  s.rb.wf = true ∧ s.rxp.wf = true ∧ s.txp.wf = true ∧ s.ackb.wf = true ∧
    s.rb.below s.cfg.rbCap = true ∧ s.rxp.below s.cfg.maxPayload = true ∧
    s.txp.below s.cfg.maxPayload = true ∧ s.ackb.below 2 = true ∧ s.txLen.toNat ≤ s.cfg.maxPayload

/-- The invariant of the machine: R21, R41 (a) to (f), R60, R193. -/
structure Inv (s : State) : Prop where
  ring : ringOk s
  memory : memoryOk s
  decIdle : decIdleOk s
  decErr : decErrOk s
  decLength : decLengthOk s
  timer : timerOk s
  errorCause : errorCauseOk s

/-- Every queued ring slot and every received payload byte has been written (R22, R30, R232). The bytes of
`TXP` are the host's to write (R235, U3). -/
structure Written (s : State) : Prop where
  ring : ∀ k, k < ringCount s → (s.rb.read ((s.rbRd + k) % s.cfg.rbCap)).isSome = true
  payload : 6 ≤ s.decState.code.toNat → s.decState.code.toNat ≤ 10 →
    ∀ k, k < s.decCursor.toNat → (s.rxp.read k).isSome = true

/-- R41 (g): in `ResponseReady` the decoder holds the awaited response. -/
abbrev ResponseHeld (s : State) : Prop :=
  s.lnkState = .responseReady → s.decState = .ready ∧ s.rxCommand = s.lnkExpected

/-- R41 (f), the converse: a recorded cause means `Error`. It "holds as long as the host performs no
`LNK_SEND` or `LNK_POWER_ON` in `Error`". -/
abbrev CauseMeansError (s : State) : Prop := s.lnkErr ≠ .none → s.lnkState = .error

/-- The bytes queued in the ring, oldest first (R22). -/
def queued (s : State) : List Byte :=
  (List.range (ringCount s)).map fun k => memRead .rb ((s.rbRd + k) % s.cfg.rbCap) s

/-- The uses of the issue operations that are within the source's contract: `LNK_SEND` in `Ready` or
`ResponseReady`, `LNK_POWER_ON` in `Off` (R172, R236). -/
def inContract (i : Instr) (s : State) : Prop :=
  match i with
  | .lnkSend _ _ => s.lnkState = .ready ∨ s.lnkState = .responseReady
  | .lnkPowerOn => s.lnkState = .off
  | .lnkPowerOnTx _ => s.lnkState = .off
  | _ => True

/-- No input of the producer or of the timer falls into the first gap of a `LNK_POLL` that comes next,
and so into none of its gaps. -/
def undisturbed (s : State) : Bool :=
  match s.requests with
  | .word .producer _ (some _) :: _ => false
  | .word .timer _ (some _) :: _ => false
  | .frame _ (some _) :: _ => false
  | _ => true

/-- The decoder fed with bytes directly, without the ring (R71). -/
def decFeed (bs : List Byte) (s : State) : State :=
  bs.foldl (fun t b => decConsume b t) s

/-- The word is the operation's encoding (R91, R92) and the port takes the operation (R81). -/
abbrev encodedAs (w : Word) (i : Instr) (p : Port) : Prop := decodeWord w = .ok i ∧ i.port = p

/-! ## What a step leaves alone -/

/-- One result word more, on this port, with this status and value. -/
abbrev answered (p : Port) (st : Status) (v : Half) (s t : State) : Prop :=
  t.results = s.results ++ [⟨p, resultWord st v⟩]

/-- The indices of the ring are as before. -/
abbrev sameRing (s t : State) : Prop := t.rbRd = s.rbRd ∧ t.rbWr = s.rbWr

/-- The decoder's registers are as before. -/
abbrev sameDecoder (s t : State) : Prop :=
  t.decState = s.decState ∧ t.decCount = s.decCount ∧ t.decCkEven = s.decCkEven ∧
    t.decCkOdd = s.decCkOdd ∧ t.decCursor = s.decCursor ∧ t.decErr = s.decErr ∧
    t.rxCommand = s.rxCommand ∧ t.rxLength = s.rxLength

/-- The decoder's registers are "empty/zero" (R134). -/
abbrev decoderCleared (t : State) : Prop :=
  t.decState = .noFrame ∧ t.decCount = 0 ∧ t.decCkEven = 0 ∧ t.decCkOdd = 0 ∧ t.decCursor = 0 ∧
    t.decErr = .none ∧ t.rxCommand = 0 ∧ t.rxLength = 0

/-- The session's registers, the sequence counter apart, are as before. -/
abbrev sameSession (s t : State) : Prop :=
  t.lnkState = s.lnkState ∧ t.lnkPending = s.lnkPending ∧ t.lnkExpected = s.lnkExpected ∧
    t.lnkErr = s.lnkErr

/-- The timer's flags and requests are as before. -/
abbrev sameTimer (s t : State) : Prop :=
  t.tmrArmed = s.tmrArmed ∧ t.tmrFired = s.tmrFired ∧ t.tmrLog = s.tmrLog

/-- The timer was stopped once (R217). -/
abbrev timerStopped (s t : State) : Prop :=
  t.tmrArmed = false ∧ t.tmrFired = false ∧ t.tmrLog = s.tmrLog ++ [.stop]

/-- The timer was started once (R216). -/
abbrev timerStarted (s t : State) : Prop :=
  t.tmrArmed = true ∧ t.tmrFired = false ∧ t.tmrLog = s.tmrLog ++ [.start s.cfg.timeoutDuration]

/-- Nothing was sent and no sequence number used: the transmit registers are as before. -/
abbrev sameTransmit (s t : State) : Prop :=
  t.txLen = s.txLen ∧ t.lnkSeq = s.lnkSeq ∧ t.synchronized = s.synchronized ∧ t.txStream = s.txStream

/-- Every byte of every memory reads as before. -/
abbrev sameMemory (s t : State) : Prop := ∀ sp i, memRead sp i t = memRead sp i s

/-- Every byte but one of every memory reads as before. -/
abbrev sameMemoryBut (sp : Space) (i : Nat) (s t : State) : Prop :=
  ∀ sp' i', ¬(sp' = sp ∧ i' = i) → memRead sp' i' t = memRead sp' i' s

/-- The parameters, the inputs still to come and the count of resets are as before. -/
abbrev sameInputs (s t : State) : Prop :=
  t.cfg = s.cfg ∧ t.requests = s.requests ∧ t.memEpoch = s.memEpoch

/-- Everything but the results is as before: an operation that only answers. -/
abbrev onlyAnswered (p : Port) (st : Status) (v : Half) (s t : State) : Prop :=
  answered p st v s t ∧ sameRing s t ∧ sameDecoder s t ∧ sameSession s t ∧ sameTimer s t ∧
    sameTransmit s t ∧ sameMemory s t ∧ sameInputs s t

/-- One byte accumulated (R122): the checksum of its position's parity takes it, the count goes on. -/
abbrev accumulated (b : Byte) (s t : State) : Prop :=
  t.decCount = s.decCount + 1 ∧
    (s.decCount.toNat % 2 = 0 → t.decCkEven = s.decCkEven ^^^ b ∧ t.decCkOdd = s.decCkOdd) ∧
    (s.decCount.toNat % 2 = 1 → t.decCkEven = s.decCkEven ∧ t.decCkOdd = s.decCkOdd ^^^ b)

/-- One byte left the ring and `DEC_STEP` answered with the decoder's new state; nothing outside the
decoder changed but that (R121). -/
abbrev tookByte (s t : State) : Prop :=
  t.rbRd = (s.rbRd + 1) % s.cfg.rbCap ∧ t.rbWr = s.rbWr ∧
    answered .host .ok (t.decState.code.setWidth 16) s t ∧
    sameSession s t ∧ sameTimer s t ∧ sameTransmit s t ∧ sameInputs s t

/-- The training preamble, if it has not been sent yet (R142). -/
def preamble (s : State) : List Byte :=
  if s.synchronized then [] else List.replicate s.cfg.syncCount s.cfg.syncByte

/-- The payload of the next frame sent from `TXP`: its bytes, the last one replaced by the sequence marker
unless the command is the acknowledgement (R143). -/
def outgoing (cmd : Byte) (s : State) : List Byte :=
  if cmd = s.cfg.ackCmd then memBytes .txp s.txLen.toNat s
  else memBytes .txp (s.txLen.toNat - 1) s ++ [sequenceMarker s.cfg s.lnkSeq]

/-- What the encoder does to transmit state and memory when a frame is sent from `TXP` (R142, R143, R144):
the preamble once, then the frame; the marker stored and the counter advanced, unless the command is the
acknowledgement. -/
abbrev sentFrame (cmd : Byte) (s t : State) : Prop :=
  t.txStream = s.txStream ++ preamble s ++
      frameBytes s.cfg s.cfg.addrDest s.cfg.addrSrc cmd (outgoing cmd s) ∧
    t.synchronized = true ∧ t.txLen = s.txLen ∧
    (cmd = s.cfg.ackCmd → t.lnkSeq = s.lnkSeq ∧ sameMemory s t) ∧
    (cmd ≠ s.cfg.ackCmd →
      t.lnkSeq = s.lnkSeq + 1 ∧
        memRead .txp (s.txLen.toNat - 1) t = sequenceMarker s.cfg s.lnkSeq ∧
        sameMemoryBut .txp (s.txLen.toNat - 1) s t)

/-- An acknowledgement of the frame in the decoder was sent (R146): `TXP`, `tx_len` and the counter are
untouched. -/
abbrev sentAck (s t : State) : Prop :=
  t.txStream = s.txStream ++ preamble s ++
      frameBytes s.cfg s.cfg.addrDest s.cfg.addrSrc s.cfg.ackCmd
        [s.rxCommand, memRead .rxp (s.rxLength.toNat - 1) s &&& 0x0F] ∧
    t.synchronized = true ∧ t.txLen = s.txLen ∧ t.lnkSeq = s.lnkSeq ∧
    memRead .ackb 0 t = s.rxCommand ∧
    memRead .ackb 1 t = memRead .rxp (s.rxLength.toNat - 1) s &&& 0x0F ∧
    ∀ sp i, ¬(sp = .ackb ∧ (i = 0 ∨ i = 1)) → memRead sp i t = memRead sp i s

/-- The session entered `Error` by this kind (R206): the timer stopped, the decoder cleared, the first
cause kept. -/
abbrev enteredError (kind : LnkErr) (s t : State) : Prop :=
  timerStopped s t ∧ decoderCleared t ∧ t.lnkState = .error ∧
    t.lnkErr = (if s.lnkState = .error then s.lnkErr else kind) ∧
    t.lnkPending = s.lnkPending ∧ t.lnkExpected = s.lnkExpected ∧ sameRing s t ∧ sameTransmit s t ∧
    sameMemory s t ∧ sameInputs s t

/-- The poll of `u` goes on where the poll of `s` stands after pulling bytes, with `rest` still queued: only
the ring's indices, the decoder and `RXP` may differ (R161). -/
abbrev pulledFrom (rest : List Byte) (s u : State) : Prop :=
  queued u = rest ∧ sameSession s u ∧ sameTimer s u ∧ sameTransmit s u ∧ sameInputs s u ∧
    u.results = s.results ∧ ∀ sp i, sp ≠ .rxp → memRead sp i u = memRead sp i s

/-- One receive-side operation of R71: a byte presented by the producer, or a `DEC_STEP`. -/
inductive RxOp where
  | write (b : Byte)
  | step
deriving DecidableEq, Repr

/-- Receive-side operations performed in order (their effect, as the meanings of RB_WRITE and DEC_STEP
have it, without the result words of the steps). -/
def runRx : List RxOp → State → State
  | [], s => s
  | .write b :: ops, s => runRx ops (rbWriteOp b s)
  | .step :: ops, s => runRx ops (decStepOp s).1

/-- The bytes of the writes that were answered `OK`, in order (R71). -/
def accepted : List RxOp → State → List Byte
  | [], _ => []
  | .write b :: ops, s =>
    (if ringFull s then [] else [b]) ++ accepted ops (rbWriteOp b s)
  | .step :: ops, s => accepted ops (decStepOp s).1

end Sys2Proof.Machine
end

