-- ==== Sys2Proof/Certificates/Slice0/Obligations.lean ====
section
/-! DEFINITION. The statements for the provers. Each docstring names the rules of spec/ it formalises. -/

open Sys2Proof Sys2Proof.Machine

/-! ## Encodings -/

/-- R82, R87, R91, R92: every well-formed instruction is read back from its encoding, whatever its operands
and whatever the parameters that meet R8. -/
def Obligations.DecodeOfEncodeIsIdentity : Prop :=
  ∀ (p : Params) (i : Instr), p.ok = true → i.wellFormed p = true → decode p (encode p i) = .ok i

/-- R82, R87, R91, R92: what decodes to an instruction is that instruction's encoding, bit for bit, and
the instruction is well formed: no bit of a word and no byte of a frame is ignored. -/
def Obligations.EncodeOfDecodeIsIdentity : Prop :=
  ∀ (p : Params) (e : Encoded) (i : Instr), decode p e = .ok i → encode p i = e ∧ i.wellFormed p = true

/-- R94: a word is illegal exactly when it selects no row of R92. -/
def Obligations.WordIllegalIffNoRowSelected : Prop :=
  ∀ w : Word, (∃ r, decodeWord w = .error r) ↔ ∀ row ∈ opcodeRows, selects w row = false

/-- R92: "No two rows overlap." -/
def Obligations.OpcodeRowsDoNotOverlap : Prop :=
  ∀ (w : Word) (j k : Fin 18),
    selects w (opcodeRows.get j) = true → selects w (opcodeRows.get k) = true → j = k

/-- R81, R82, R91, R92, R93: one word of every row and a frame, written out from the tables of the spec,
decode to what they stand for, each operation on its port; words of no row are rejected; result words carry
the status codes of the table. -/
def Obligations.WrittenOutWordsDecode : Prop :=
  (encodedAs 0x00000000 .nop .host ∧ encodedAs 0x0100001E (.rbWrite 0x1E) .producer ∧
    encodedAs 0x02000000 .rbRead .host ∧ encodedAs 0x03000000 .rbClear .host ∧
    encodedAs 0x04000000 .decStep .host ∧ encodedAs 0x05000000 .decReset .host ∧
    encodedAs 0x06000064 (.encFrame 0x64) .host ∧ encodedAs 0x0701FF01 (.txbWrite 511 0x01) .host ∧
    encodedAs 0x08000300 (.txbSetlen 3) .host ∧ encodedAs 0x09000200 (.txbRead 2) .host ∧
    encodedAs 0x0A000100 (.rxbRead 1) .host ∧ encodedAs 0x0B000012 (.regRead 18) .host ∧
    encodedAs 0x0C000000 .lnkInit .host ∧ encodedAs 0x0D000000 .lnkPowerOn .host ∧
    encodedAs 0x0D0001D1 (.lnkPowerOnTx 0xD1) .host ∧ encodedAs 0x0E000504 (.lnkSend 0x04 0x05) .host ∧
    encodedAs 0x0F000000 .lnkPoll .host ∧ encodedAs 0x10000000 .tmrExpire .timer) ∧
  (decodeWord 0x0E010404 = .error .mustBeZero ∧ decodeWord 0x11000000 = .error .unknownOp) ∧
  decodeFrame Config.params [0x1E, 0x0C, 0x00, 0x7F, 0x00, 0x02, 0x04, 0x00, 0x1A, 0x71] =
    .ok (.wireAck 0x0C 0x00 0x04 0) ∧
  (resultWord .ok 0xABCD = 0x0000ABCD ∧ resultWord .full 0xABCD = 0x0100ABCD ∧
    resultWord .empty 0xABCD = 0x0200ABCD ∧ resultWord .errLen 0xABCD = 0x0300ABCD ∧
    resultWord .errIndex 0xABCD = 0x0400ABCD ∧ resultWord .illegalOp 0xABCD = 0x0500ABCD)

/-- R84: the length of a frame, always even. -/
def Obligations.FrameLengthIsEven : Prop :=
  ∀ (p : Params) (dest src cmd : Byte) (payload : List Byte),
    (frameBytes p dest src cmd payload).length = 6 + payload.length + payload.length % 2 + 2 ∧
      (frameBytes p dest src cmd payload).length % 2 = 0

/-- R85: each checksum of a sequence of bytes is the XOR of the bytes at the positions of its parity. -/
def Obligations.ChecksumsAreParityXors : Prop :=
  ∀ bs : List Byte,
    (parityXor bs).1 =
        (((List.range bs.length).filter fun k => k % 2 == 0).map fun k => bs.getD k 0).foldl
          (fun a b => a ^^^ b) 0 ∧
      (parityXor bs).2 =
        (((List.range bs.length).filter fun k => k % 2 == 1).map fun k => bs.getD k 0).foldl
          (fun a b => a ^^^ b) 0

/-- R144 against R82 and R85 (conflicts C1, C4): what the encoder emits, with its checksums seeded from the
header and no padding folded in, is the wire frame with its checksums over all bytes before the pair. -/
def Obligations.EmissionIsTheWireFrame : Prop :=
  ∀ (p : Params) (cmd : Byte) (payload : List Byte),
    emission p cmd payload = frameBytes p p.addrDest p.addrSrc cmd payload

/-! ## The step -/

/-- A step takes the next input and runs the instruction it decodes to, on the port that takes it; nothing
else is done around it but taking the input (R68, R70, R81). That inputs stand in a list is the model's
choice (log entry 3). -/
def Obligations.StepRunsTheDecodedInstruction : Prop :=
  ∀ (s : State) (rest : List Request) (i : Instr) (slot : Option Nat),
    (∀ w, decode s.cfg (.word w) = .ok i → s.requests = .word i.port w slot :: rest →
      step s = exec i { s with requests := rest }) ∧
    (∀ bs, decode s.cfg (.frame bs) = .ok i → s.requests = .frame bs slot :: rest →
      step s = exec i { s with requests := rest })

/-- R94: an illegal word, or a legal word on a port that does not take it (R81), is answered `ILLEGAL_OP`
with value 0 and changes nothing. -/
def Obligations.IllegalWordChangesNothing : Prop :=
  ∀ (s : State) (rest : List Request) (p : Port) (w : Word) (slot : Option Nat),
    s.requests = .word p w slot :: rest →
    (∀ i, decodeWord w = .ok i → i.port ≠ p) →
    step s = .next { s with requests := rest, results := s.results ++ [⟨p, 0x05000000⟩] }

/-- R231: every register of the reset state has the value of the table, and of no memory is any byte
known (log entry 6). -/
def Obligations.ResetValues : Prop :=
  State.reset.rbRd = 0 ∧ State.reset.rbWr = 0 ∧
    decoderCleared State.reset ∧ State.reset.txLen = 0 ∧ State.reset.lnkState = .off ∧
    State.reset.lnkSeq = 0 ∧ State.reset.lnkPending = 0 ∧ State.reset.lnkExpected = 0 ∧
    State.reset.tmrArmed = false ∧ State.reset.tmrFired = false ∧
    State.reset.synchronized = false ∧ State.reset.lnkErr = .none ∧
    State.reset.txStream = [] ∧ State.reset.tmrLog = [] ∧
    ∀ sp i, (State.reset.mem sp).read i = none

/-- R230, R231, R233: the reset input puts every register in the state of R231 from any state, keeps the
parameters, makes no timer request and emits no byte. That the inputs still to come stay is the model's
choice (log entry 17). -/
def Obligations.ResetInputResetsEverything : Prop :=
  ∀ (s : State) (rest : List Request), s.requests = .reset :: rest →
    ∃ t, step s = .next t ∧ t.rbRd = 0 ∧ t.rbWr = 0 ∧ decoderCleared t ∧ t.txLen = 0 ∧
      t.lnkState = .off ∧ t.lnkSeq = 0 ∧ t.lnkPending = 0 ∧ t.lnkExpected = 0 ∧
      t.tmrArmed = false ∧ t.tmrFired = false ∧ t.synchronized = false ∧ t.lnkErr = .none ∧
      t.txStream = [] ∧ t.tmrLog = [] ∧ (∀ sp i, (t.mem sp).read i = none) ∧
      t.cfg = s.cfg ∧ t.requests = rest

/-- R248: the hardware never halts: every instruction, in every state, has a next state; with no input
pending the block waits (R234) and nothing changes (the form of waiting is the model's choice, log
entry 3). -/
def Obligations.NoStepStops : Prop :=
  (∀ (i : Instr) (s : State), ∃ t, exec i s = .next t) ∧ (∀ s : State, ∃ t, step s = .next t) ∧
    ∀ s : State, s.requests = [] → step s = .next s

/-! ## Invariants -/

/-- R21, R41 (a) to (f), R60, R193, and R22, R30, R232: both invariants hold at reset. -/
def Obligations.InvariantsHoldAtReset : Prop := Inv State.reset ∧ Written State.reset

/-- R41 (a) to (f), R21, R60, R193: every step keeps the invariant, whatever its input. -/
def Obligations.StepKeepsInv : Prop :=
  ∀ s t : State, Inv s → step s = .next t → Inv t

/-- R22, R30, R232: every queued ring slot and every received payload byte has been written, and every step
keeps it so. -/
def Obligations.StepKeepsWritten : Prop :=
  ∀ s t : State, Inv s → Written s → step s = .next t → Written t

/-- R41 (g): the response is held in `ResponseReady`, as long as the host performs no `DEC_RESET` there. -/
def Obligations.ResponseStaysHeld : Prop :=
  ∀ (i : Instr) (s t : State), i ≠ .decReset → ResponseHeld s → exec i s = .next t → ResponseHeld t

/-- R41 (f): the converse, within the contract of R236. -/
def Obligations.CauseMeansErrorWithinContract : Prop :=
  ∀ (i : Instr) (s t : State), inContract i s → CauseMeansError s → exec i s = .next t →
    CauseMeansError t

/-- R208, R172: within the contract nothing but `LNK_INIT` leaves the session's `Error` state, and the
first cause is kept there (R37). -/
def Obligations.ErrorIsTerminalUntilReinitialised : Prop :=
  ∀ (i : Instr) (s t : State), i ≠ .lnkInit → inContract i s → s.lnkState = .error →
    exec i s = .next t → t.lnkState = .error ∧ t.lnkErr = s.lnkErr

/-- R155: no operation enters `Ready` except a poll that completes the power-on with the frame of
`PWRON_DONE_CMD`. -/
def Obligations.ReadyOnlyByPowerOnCompletion : Prop :=
  ∀ (i : Instr) (s t : State), exec i s = .next t → s.lnkState ≠ .ready → t.lnkState = .ready →
    i = .lnkPoll ∧ s.lnkState = .waitingForPowerOn ∧ t.decState = .ready ∧
      t.rxCommand = s.cfg.pwronDoneCmd ∧ t.tmrArmed = false

/-- R36, R142: `synchronized` is cleared by nothing but the reset input. -/
def Obligations.PreambleFlagIsNeverCleared : Prop :=
  ∀ (s t : State) (r : Request) (rest : List Request), s.requests = r :: rest → r ≠ .reset →
    step s = .next t → s.synchronized = true → t.synchronized = true

/-- R39, R63, R70 (c): outputs and answers are only added to, and the parameters stay, in every step that
takes no reset input (that a step takes one input is the model's choice, log entry 3). -/
def Obligations.OutputsOnlyGrow : Prop :=
  ∀ (s t : State) (r : Request) (rest : List Request), s.requests = r :: rest → r ≠ .reset →
    step s = .next t →
    s.txStream <+: t.txStream ∧ s.tmrLog <+: t.tmrLog ∧ s.results <+: t.results ∧ t.cfg = s.cfg

/-- R211: the producer's context can only queue bytes behind those queued, the timer's can only set
`tmr_fired`, whatever word is presented. -/
def Obligations.OtherContextsAreConfined : Prop :=
  ∀ (s t : State) (rest : List Request) (w : Word) (bs : List Byte) (slot : Option Nat),
    step s = .next t →
    (s.requests = .word .producer w slot :: rest ∨ s.requests = .frame bs slot :: rest →
      t.rbRd = s.rbRd ∧ (ringOk s → queued s <+: queued t) ∧ sameDecoder s t ∧ sameSession s t ∧
        sameTimer s t ∧ sameTransmit s t ∧ sameInputs { s with requests := rest } t ∧
        ∀ sp i, sp ≠ .rb → memRead sp i t = memRead sp i s) ∧
    (s.requests = .word .timer w slot :: rest →
      sameRing s t ∧ sameDecoder s t ∧ sameSession s t ∧ t.tmrArmed = s.tmrArmed ∧
        (s.tmrFired = true → t.tmrFired = true) ∧ t.tmrLog = s.tmrLog ∧ sameTransmit s t ∧
        sameMemory s t ∧ sameInputs { s with requests := rest } t)

/-- R68, R159: an input of the producer or of the timer that falls into a gap between two micro-steps of a
poll does there what it does between two operations, and the inputs behind it follow; one that is to fall
later comes one gap nearer; any other input waits. So a byte that falls into the first gap of a poll is as a
byte queued before it. How an input is placed in a gap is the model's choice (log entry 10). -/
def Obligations.EventInsidePollActsAsBetweenOperations : Prop :=
  ∀ (s : State) (rest : List Request) (w : Word) (bs : List Byte) (k : Nat),
    (∀ r ∈ [Request.word .producer w (some 0), .word .timer w (some 0), .frame bs (some 0)],
      s.requests = r :: rest → ∃ t, step s = .next t ∧ t.requests = rest ∧ gap s = gap t) ∧
    (∀ r ∈ [Request.word .producer w (some 0), .frame bs (some 0)],
      s.requests = r :: rest → s.tmrFired = false →
        ∃ t, step s = .next t ∧ exec .lnkPoll s = exec .lnkPoll t) ∧
    (s.requests = .word .producer w (some (k + 1)) :: rest →
      gap s = { s with requests := .word .producer w (some k) :: rest }) ∧
    (s.requests = .word .timer w (some (k + 1)) :: rest →
      gap s = { s with requests := .word .timer w (some k) :: rest }) ∧
    (s.requests = .frame bs (some (k + 1)) :: rest →
      gap s = { s with requests := .frame bs (some k) :: rest }) ∧
    (undisturbed s = true → gap s = s)

/-! ## The ring buffer -/

/-- R111: `RB_WRITE`. -/
def Obligations.RbWriteQueuesOrReportsFull : Prop :=
  (∀ b, encodedAs (packWord 0x01 0 b) (.rbWrite b) .producer) ∧
  ∀ (b : Byte) (s : State),
    ∃ t, exec (.rbWrite b) s = .next t ∧
      ((s.rbWr + 1) % s.cfg.rbCap = s.rbRd → onlyAnswered .producer .full 0 s t) ∧
      ((s.rbWr + 1) % s.cfg.rbCap ≠ s.rbRd →
        answered .producer .ok 0 s t ∧ t.rbRd = s.rbRd ∧ t.rbWr = (s.rbWr + 1) % s.cfg.rbCap ∧
          memRead .rb s.rbWr t = b ∧ sameMemoryBut .rb s.rbWr s t ∧ sameDecoder s t ∧
          sameSession s t ∧ sameTimer s t ∧ sameTransmit s t ∧ sameInputs s t)

/-- R112: `RB_READ`. -/
def Obligations.RbReadDequeuesOrReportsEmpty : Prop :=
  encodedAs 0x02000000 .rbRead .host ∧
  ∀ s : State,
    ∃ t, exec .rbRead s = .next t ∧
      (s.rbRd = s.rbWr → onlyAnswered .host .empty 0 s t) ∧
      (s.rbRd ≠ s.rbWr →
        answered .host .ok ((memRead .rb s.rbRd s).setWidth 16) s t ∧
          t.rbRd = (s.rbRd + 1) % s.cfg.rbCap ∧ t.rbWr = s.rbWr ∧ sameMemory s t ∧ sameDecoder s t ∧
          sameSession s t ∧ sameTimer s t ∧ sameTransmit s t ∧ sameInputs s t)

/-- R113: `RB_CLEAR`. -/
def Obligations.RbClearEmptiesTheRing : Prop :=
  encodedAs 0x03000000 .rbClear .host ∧
  ∀ s : State,
    ∃ t, exec .rbClear s = .next t ∧ answered .host .ok 0 s t ∧ t.rbRd = 0 ∧ t.rbWr = 0 ∧
      sameMemory s t ∧ sameDecoder s t ∧ sameSession s t ∧ sameTimer s t ∧ sameTransmit s t ∧
      sameInputs s t

/-- R114, R115: the ring refines a bounded queue: a write appends unless `RB_CAP - 1` bytes are held, a
read takes the oldest, a clear empties. -/
def Obligations.RingRefinesBoundedQueue : Prop :=
  ∀ s : State, ringOk s →
    (queued s).length < s.cfg.rbCap ∧
    (∀ b t, exec (.rbWrite b) s = .next t →
      ((queued s).length = s.cfg.rbCap - 1 → queued t = queued s ∧ answered .producer .full 0 s t) ∧
      ((queued s).length < s.cfg.rbCap - 1 →
        queued t = queued s ++ [b] ∧ answered .producer .ok 0 s t)) ∧
    (∀ t, exec .rbRead s = .next t →
      (queued s = [] → queued t = [] ∧ answered .host .empty 0 s t) ∧
      (∀ b q, queued s = b :: q → queued t = q ∧ answered .host .ok (b.setWidth 16) s t)) ∧
    (∀ t, exec .rbClear s = .next t → queued t = [])

/-- R61, R96, R111: the wire frames of the table arrive byte by byte; the ring keeps those there is room
for and drops the rest, and nothing else changes until the host takes them. That a row of the table stands
for the arrival of its bytes is the model's reading (log entry 11). -/
def Obligations.ArrivingFramesAreQueued : Prop :=
  ∀ (s : State) (dest src acked cmd : Byte) (seq : Nibble) (payload : List Byte), ringOk s →
    ∀ i bs,
      (i = .wireAck dest src acked seq ∧
          bs = frameBytes s.cfg dest src s.cfg.ackCmd [acked, seq.setWidth 8] ∨
        i = .wirePwronDone dest src payload ∧
          bs = frameBytes s.cfg dest src s.cfg.pwronDoneCmd payload ∨
        i = .wireData dest src cmd payload ∧ bs = frameBytes s.cfg dest src cmd payload) →
      ∃ t, exec i s = .next t ∧ queued t = (queued s ++ bs).take (s.cfg.rbCap - 1) ∧
        t.rbRd = s.rbRd ∧ sameDecoder s t ∧ sameSession s t ∧ sameTimer s t ∧ sameTransmit s t ∧
        sameInputs s t ∧ (∀ sp i, sp ≠ .rb → memRead sp i t = memRead sp i s) ∧
        ∃ rs : List Result, t.results = s.results ++ rs ∧ rs.length = bs.length ∧
          ∀ r ∈ rs, r.port = .producer ∧ (r.word = 0x00000000 ∨ r.word = 0x01000000)

/-! ## The decoder -/

/-- R133, R121: in `Ready` or `Error` no byte is taken and no register changes; with no byte in the ring
the answer is `NO_INPUT`, "nothing else changes". -/
def Obligations.DecStepWithoutByte : Prop :=
  ∀ s : State,
    (s.decState = .ready ∨ s.decState = .error →
      ∃ t, exec .decStep s = .next t ∧
        onlyAnswered .host .ok (s.decState.code.setWidth 16) s t) ∧
    (s.decState ≠ .ready → s.decState ≠ .error → s.rbRd = s.rbWr →
      ∃ t, exec .decStep s = .next t ∧ onlyAnswered .host .ok 0x00FF s t)

/-- R123: a byte in `NoFrame`: the marker starts a frame, a stray byte is skipped. -/
def Obligations.DecStepLooksForTheMarker : Prop :=
  ∀ s : State, s.rbRd ≠ s.rbWr → s.decState = .noFrame →
    ∃ t, exec .decStep s = .next t ∧ tookByte s t ∧ sameMemory s t ∧
      (memRead .rb s.rbRd s = s.cfg.frameMarker →
        t.decState = .frameMarkerRead ∧ accumulated s.cfg.frameMarker s t ∧
          t.decCursor = s.decCursor ∧
          t.decErr = s.decErr ∧ t.rxCommand = s.rxCommand ∧ t.rxLength = s.rxLength) ∧
      (memRead .rb s.rbRd s ≠ s.cfg.frameMarker → sameDecoder s t)

/-- R124, R125, R126, R127, R130: a header byte or the padding byte: accumulated, stored where the rule
stores it, one state on. -/
def Obligations.DecStepReadsHeaderAndPadding : Prop :=
  ∀ s : State, s.rbRd ≠ s.rbWr →
    s.decState = .frameMarkerRead ∨ s.decState = .destinationRead ∨ s.decState = .sourceRead ∨
      s.decState = .commandRead ∨ s.decState = .payloadRead →
    ∃ t, exec .decStep s = .next t ∧ tookByte s t ∧ sameMemory s t ∧
      accumulated (memRead .rb s.rbRd s) s t ∧ t.decCursor = s.decCursor ∧ t.decErr = s.decErr ∧
      (s.decState = .frameMarkerRead → t.decState = .destinationRead) ∧
      (s.decState = .destinationRead → t.decState = .sourceRead) ∧
      (s.decState = .sourceRead → t.decState = .commandRead) ∧
      (s.decState = .commandRead → t.decState = .lengthHighRead) ∧
      (s.decState = .payloadRead → t.decState = .paddingRead) ∧
      t.rxCommand = (if s.decState = .sourceRead then memRead .rb s.rbRd s else s.rxCommand) ∧
      t.rxLength =
        (if s.decState = .commandRead then memRead .rb s.rbRd s ++ (0x00 : Byte) else s.rxLength)

/-- R128: the length low byte: composed, tested against 1 and `MAX_PAYLOAD`, refused with cause
`LENGTH`. -/
def Obligations.DecStepTestsTheLength : Prop :=
  ∀ s : State, s.rbRd ≠ s.rbWr → s.decState = .lengthHighRead →
    ∃ t, exec .decStep s = .next t ∧ tookByte s t ∧ sameMemory s t ∧
      accumulated (memRead .rb s.rbRd s) s t ∧ t.decCursor = 0 ∧ t.rxCommand = s.rxCommand ∧
      t.rxLength = s.rxLength.extractLsb' 8 8 ++ memRead .rb s.rbRd s ∧
      (1 ≤ t.rxLength.toNat ∧ t.rxLength.toNat ≤ s.cfg.maxPayload →
        t.decState = .lengthLowRead ∧ t.decErr = s.decErr) ∧
      (t.rxLength.toNat = 0 ∨ s.cfg.maxPayload < t.rxLength.toNat →
        t.decState = .error ∧ t.decErr = .length)

/-- R129: a payload byte: stored at the cursor; after the last one the padding is expected if the length is
odd, the even checksum if it is even. -/
def Obligations.DecStepStoresPayload : Prop :=
  ∀ s : State, s.rbRd ≠ s.rbWr → s.decState = .lengthLowRead →
    ∃ t, exec .decStep s = .next t ∧ tookByte s t ∧ accumulated (memRead .rb s.rbRd s) s t ∧
      memRead .rxp s.decCursor.toNat t = memRead .rb s.rbRd s ∧
      sameMemoryBut .rxp s.decCursor.toNat s t ∧ t.decCursor = s.decCursor + 1 ∧
      t.decErr = s.decErr ∧ t.rxCommand = s.rxCommand ∧ t.rxLength = s.rxLength ∧
      (s.decCursor + 1 ≠ s.rxLength → t.decState = .lengthLowRead) ∧
      (s.decCursor + 1 = s.rxLength → s.rxLength.toNat % 2 = 0 → t.decState = .paddingRead) ∧
      (s.decCursor + 1 = s.rxLength → s.rxLength.toNat % 2 = 1 → t.decState = .payloadRead)

/-- R131, R132: the checksum bytes: counted, compared, not accumulated. -/
def Obligations.DecStepComparesChecksums : Prop :=
  ∀ s : State, s.rbRd ≠ s.rbWr → s.decState = .paddingRead ∨ s.decState = .evenChecksumRead →
    ∃ t, exec .decStep s = .next t ∧ tookByte s t ∧ sameMemory s t ∧
      t.decCount = s.decCount + 1 ∧ t.decCkEven = s.decCkEven ∧ t.decCkOdd = s.decCkOdd ∧
      t.decCursor = s.decCursor ∧ t.rxCommand = s.rxCommand ∧ t.rxLength = s.rxLength ∧
      (s.decState = .paddingRead → memRead .rb s.rbRd s = s.decCkEven →
        t.decState = .evenChecksumRead ∧ t.decErr = s.decErr) ∧
      (s.decState = .evenChecksumRead → memRead .rb s.rbRd s = s.decCkOdd →
        t.decState = .ready ∧ t.decErr = s.decErr) ∧
      (s.decState = .paddingRead ∧ memRead .rb s.rbRd s ≠ s.decCkEven ∨
          s.decState = .evenChecksumRead ∧ memRead .rb s.rbRd s ≠ s.decCkOdd →
        t.decState = .error ∧ t.decErr = .checksum)

/-- R134: `DEC_RESET`. -/
def Obligations.DecResetClearsTheDecoder : Prop :=
  encodedAs 0x05000000 .decReset .host ∧
  ∀ s : State,
    ∃ t, exec .decReset s = .next t ∧ answered .host .ok 0 s t ∧ decoderCleared t ∧ sameRing s t ∧
      sameMemory s t ∧ sameSession s t ∧ sameTimer s t ∧ sameTransmit s t ∧ sameInputs s t

/-- R147: the decoder, freshly reset, reads back every frame the encoder can emit with a payload that
frames may have: command, length and payload. -/
def Obligations.DecoderReadsBackEmission : Prop :=
  ∀ (s : State) (cmd : Byte) (payload : List Byte), s.cfg.ok = true → decoderCleared s →
    1 ≤ payload.length → payload.length ≤ s.cfg.maxPayload →
    let t := decFeed (emission s.cfg cmd payload) s
    t.decState = .ready ∧ t.rxCommand = cmd ∧ t.rxLength.toNat = payload.length ∧
      memBytes .rxp payload.length t = payload ∧ t.decErr = .none

/-- R137: one changed destination, source, command, payload, padding or checksum byte ends the frame in the
decoder's `Error` with cause `CHECKSUM`. -/
def Obligations.OneWrongByteIsDetected : Prop :=
  ∀ (s : State) (dest src cmd wrong : Byte) (payload : List Byte) (k : Nat), s.cfg.ok = true →
    decoderCleared s → 1 ≤ payload.length → payload.length ≤ s.cfg.maxPayload →
    k = 1 ∨ k = 2 ∨ k = 3 ∨ 6 ≤ k →
    k < (frameBytes s.cfg dest src cmd payload).length →
    (frameBytes s.cfg dest src cmd payload)[k]? ≠ some wrong →
    let t := decFeed ((frameBytes s.cfg dest src cmd payload).set k wrong) s
    t.decState = .error ∧ t.decErr = .checksum

/-- R71: what the decoder makes of the bytes queued does not depend on when they were queued relative to
the steps: its registers are those of the bytes it took, fed to it in order. -/
def Obligations.DecoderIgnoresChunking : Prop :=
  ∀ (ops : List RxOp) (s : State), ringOk s →
    ∃ taken, queued s ++ accepted ops s = taken ++ queued (runRx ops s) ∧
      sameDecoder (decFeed taken s) (runRx ops s) ∧ (runRx ops s).rxp = (decFeed taken s).rxp

/-! ## The encoder -/

/-- R145 with R141 to R144: `ENC_FRAME`. -/
def Obligations.EncFrameSendsOrRefuses : Prop :=
  (∀ cmd, encodedAs (packWord 0x06 0 cmd) (.encFrame cmd) .host) ∧
  ∀ (cmd : Byte) (s : State),
    ∃ t, exec (.encFrame cmd) s = .next t ∧
      (s.cfg.maxPayload < s.txLen.toNat ∨ cmd ≠ s.cfg.ackCmd ∧ s.txLen = 0 →
        onlyAnswered .host .errLen 0 s t) ∧
      (s.txLen.toNat ≤ s.cfg.maxPayload → cmd = s.cfg.ackCmd ∨ s.txLen ≠ 0 →
        answered .host .ok 0 s t ∧ sentFrame cmd s t ∧ sameRing s t ∧ sameDecoder s t ∧
          sameSession s t ∧ sameTimer s t ∧ sameInputs s t)

/-! ## Access operations -/

/-- R190: `NOP`. -/
def Obligations.NopChangesNothing : Prop :=
  encodedAs 0x00000000 .nop .host ∧
  ∀ s : State, ∃ t, exec .nop s = .next t ∧ onlyAnswered .host .ok 0 s t

/-- R191, R50, R51, with the codes of R23, R27, R32 and R37: `REG_READ`: the registers by number, each
zero-extended, and `ERR_INDEX` for a reserved number. A code is the place in a list. The ring's registers
are stated for indices that 16 bits hold; for others the value is free, which is the model's choice (log
entry 8). -/
def Obligations.RegReadAnswersTheRegister : Prop :=
  (∀ st : DecState,
    [DecState.noFrame, .frameMarkerRead, .destinationRead, .sourceRead, .commandRead, .lengthHighRead,
      .lengthLowRead, .payloadRead, .paddingRead, .evenChecksumRead, .ready,
      .error][st.code.toNat]? = some st) ∧
  (∀ e : DecErr, [DecErr.none, .checksum, .length][e.code.toNat]? = some e) ∧
  (∀ st : LnkState,
    [LnkState.off, .waitingForPowerOn, .ready, .waitingForAcknowledge, .waitingForResponse,
      .responseReady, .error][st.code.toNat]? = some st) ∧
  (∀ e : LnkErr,
    [LnkErr.none, .checksumMismatch, .unexpectedCommand, .timeout, .lengthViolation][e.code.toNat]? =
      some e) ∧
  ∀ (n : Byte) (s : State),
    ∃ t, exec (.regRead n) s = .next t ∧
      (17 < n.toNat → onlyAnswered .host .errIndex 0 s t) ∧
      (n.toNat ≤ 17 → ∃ v : Half, onlyAnswered .host .ok v s t ∧
        (n = 0 → s.rbRd < 65536 → v.toNat = s.rbRd) ∧
        (n = 1 → s.rbWr < 65536 → v.toNat = s.rbWr) ∧
        (n = 17 → (queued s).length < 65536 → v.toNat = (queued s).length) ∧
        (n = 2 → v.toNat = s.decState.code.toNat) ∧ (n = 3 → v = s.decCount) ∧
        (n = 4 → v.toNat = s.decCkEven.toNat) ∧ (n = 5 → v.toNat = s.decCkOdd.toNat) ∧
        (n = 6 → v = s.decCursor) ∧ (n = 7 → v.toNat = s.decErr.code.toNat) ∧
        (n = 8 → v.toNat = s.rxCommand.toNat) ∧ (n = 9 → v = s.rxLength) ∧ (n = 10 → v = s.txLen) ∧
        (n = 11 → v.toNat = s.lnkState.code.toNat) ∧ (n = 12 → v.toNat = s.lnkSeq.toNat) ∧
        (n = 13 → v.toNat = s.lnkPending.toNat) ∧ (n = 14 → v.toNat = s.lnkExpected.toNat) ∧
        (n = 15 → v.toNat = s.tmrArmed.toNat + 2 * s.tmrFired.toNat + 4 * s.synchronized.toNat) ∧
        (n = 16 → v.toNat = s.lnkErr.code.toNat))

/-- R192: `TXB_WRITE`. -/
def Obligations.TxbWriteStoresOneByte : Prop :=
  (∀ idx b, encodedAs (packWord 0x07 idx b) (.txbWrite idx b) .host) ∧
  ∀ (idx : Half) (b : Byte) (s : State),
    ∃ t, exec (.txbWrite idx b) s = .next t ∧
      (s.cfg.maxPayload ≤ idx.toNat → onlyAnswered .host .errIndex 0 s t) ∧
      (idx.toNat < s.cfg.maxPayload →
        answered .host .ok 0 s t ∧ memRead .txp idx.toNat t = b ∧
          sameMemoryBut .txp idx.toNat s t ∧ sameRing s t ∧ sameDecoder s t ∧ sameSession s t ∧
          sameTimer s t ∧ sameTransmit s t ∧ sameInputs s t)

/-- R193: `TXB_SETLEN`. -/
def Obligations.TxbSetlenSetsTheLength : Prop :=
  (∀ len, encodedAs (packWord 0x08 len 0) (.txbSetlen len) .host) ∧
  ∀ (len : Half) (s : State),
    ∃ t, exec (.txbSetlen len) s = .next t ∧
      (s.cfg.maxPayload < len.toNat → onlyAnswered .host .errLen 0 s t) ∧
      (len.toNat ≤ s.cfg.maxPayload →
        answered .host .ok 0 s t ∧ t.txLen = len ∧ t.lnkSeq = s.lnkSeq ∧
          t.synchronized = s.synchronized ∧ t.txStream = s.txStream ∧ sameMemory s t ∧ sameRing s t ∧
          sameDecoder s t ∧ sameSession s t ∧ sameTimer s t ∧ sameInputs s t)

/-- R194, R74: `TXB_READ` returns the byte that stands in `TXP`, after a `TXB_WRITE` the byte written. -/
def Obligations.TxbReadReturnsTheByteWritten : Prop :=
  (∀ (idx : Half) (s : State),
    ∃ t, exec (.txbRead idx) s = .next t ∧
      (s.cfg.maxPayload ≤ idx.toNat → onlyAnswered .host .errIndex 0 s t) ∧
      (idx.toNat < s.cfg.maxPayload →
        onlyAnswered .host .ok ((memRead .txp idx.toNat s).setWidth 16) s t)) ∧
  ∀ (idx : Half) (b : Byte) (s : State), idx.toNat < s.cfg.maxPayload →
    ∃ t u, exec (.txbWrite idx b) s = .next t ∧ exec (.txbRead idx) t = .next u ∧
      answered .host .ok (b.setWidth 16) t u

/-- R195, R76, R66: `RXB_READ`: the payload byte where the value is defined; elsewhere the status is still
`OK` and the value, which nothing says, is the same when nothing happens in between: for an unspecified byte
that is the model's choice (log entry 7). -/
def Obligations.RxbReadReturnsReceivedBytes : Prop :=
  ∀ (idx : Half) (s : State),
    ∃ t, exec (.rxbRead idx) s = .next t ∧
      (s.cfg.maxPayload ≤ idx.toNat → onlyAnswered .host .errIndex 0 s t) ∧
      (idx.toNat < s.cfg.maxPayload →
        ∃ v : Byte, onlyAnswered .host .ok (v.setWidth 16) s t ∧
          (6 ≤ s.decState.code.toNat → s.decState.code.toNat ≤ 10 →
            idx.toNat < s.decCursor.toNat → v = memRead .rxp idx.toNat s) ∧
          ∃ u, exec (.rxbRead idx) t = .next u ∧ onlyAnswered .host .ok (v.setWidth 16) t u)

/-! ## The link -/

/-- R156: `LNK_INIT`. -/
def Obligations.LnkInitReinitialises : Prop :=
  encodedAs 0x0C000000 .lnkInit .host ∧
  ∀ s : State,
    ∃ t, exec .lnkInit s = .next t ∧ answered .host .ok 0 s t ∧ timerStopped s t ∧
      decoderCleared t ∧ t.lnkState = .off ∧ t.lnkSeq = 0 ∧ t.lnkPending = 0 ∧ t.lnkExpected = 0 ∧
      t.lnkErr = .none ∧ t.synchronized = s.synchronized ∧ t.txLen = s.txLen ∧
      t.txStream = s.txStream ∧ sameRing s t ∧ sameMemory s t ∧ sameInputs s t

/-- R157: `LNK_POWER_ON` in both forms. That a refusal answers the session state and not 0 is the model's
reading of R157 and R93 against R141 (log entry 24). -/
def Obligations.LnkPowerOnBeginsTheWait : Prop :=
  (encodedAs 0x0D000000 .lnkPowerOn .host ∧
    ∀ cmd, encodedAs (packWord 0x0D 1 cmd) (.lnkPowerOnTx cmd) .host) ∧
  (∀ s : State,
    ∃ t, exec .lnkPowerOn s = .next t ∧ answered .host .ok 1 s t ∧ decoderCleared t ∧
      t.lnkState = .waitingForPowerOn ∧ timerStarted s t ∧ t.lnkPending = s.lnkPending ∧
      t.lnkExpected = s.lnkExpected ∧ t.lnkErr = s.lnkErr ∧ sameRing s t ∧ sameTransmit s t ∧
      sameMemory s t ∧ sameInputs s t) ∧
  ∀ (cmd : Byte) (s : State),
    ∃ t, exec (.lnkPowerOnTx cmd) s = .next t ∧
      (s.cfg.maxPayload < s.txLen.toNat ∨ cmd ≠ s.cfg.ackCmd ∧ s.txLen = 0 →
        onlyAnswered .host .errLen (s.lnkState.code.setWidth 16) s t) ∧
      (s.txLen.toNat ≤ s.cfg.maxPayload → cmd = s.cfg.ackCmd ∨ s.txLen ≠ 0 →
        answered .host .ok 1 s t ∧ decoderCleared t ∧ sentFrame cmd s t ∧ t.lnkPending = cmd ∧
          t.lnkExpected = s.lnkExpected ∧ t.lnkErr = s.lnkErr ∧ t.lnkState = .waitingForPowerOn ∧
          timerStarted s t ∧ sameRing s t ∧ sameInputs s t)

/-- R158, R172: `LNK_SEND`, in whatever session state. That a refusal answers the session state and not 0 is
the model's reading of R158 and R93 against R141 (log entry 24). -/
def Obligations.LnkSendSendsOrRefuses : Prop :=
  (∀ cmd exp : Byte, encodedAs (packWord 0x0E (exp.setWidth 16) cmd) (.lnkSend cmd exp) .host) ∧
  ∀ (cmd exp : Byte) (s : State),
    ∃ t, exec (.lnkSend cmd exp) s = .next t ∧
      (s.cfg.maxPayload < s.txLen.toNat ∨ cmd ≠ s.cfg.ackCmd ∧ s.txLen = 0 →
        onlyAnswered .host .errLen (s.lnkState.code.setWidth 16) s t) ∧
      (s.txLen.toNat ≤ s.cfg.maxPayload → cmd = s.cfg.ackCmd ∨ s.txLen ≠ 0 →
        answered .host .ok 3 s t ∧ decoderCleared t ∧ sentFrame cmd s t ∧ t.lnkPending = cmd ∧
          t.lnkExpected = exp ∧ t.lnkErr = s.lnkErr ∧ t.lnkState = .waitingForAcknowledge ∧
          timerStarted s t ∧ sameRing s t ∧ sameInputs s t)

/-- R168: `TMR_EXPIRE`. -/
def Obligations.TmrExpireOnlySetsTheFlag : Prop :=
  encodedAs 0x10000000 .tmrExpire .timer ∧
  ∀ s : State,
    ∃ t, exec .tmrExpire s = .next t ∧ answered .timer .ok 0 s t ∧
      t.tmrFired = (s.tmrFired || s.tmrArmed) ∧ t.tmrArmed = s.tmrArmed ∧ t.tmrLog = s.tmrLog ∧
      sameRing s t ∧ sameDecoder s t ∧ sameSession s t ∧ sameTransmit s t ∧ sameMemory s t ∧
      sameInputs s t

/-- R160: a pending timeout in a state that does not ignore it ends the poll in `Error`; no byte is
pulled. -/
def Obligations.PollTakesThePendingTimeout : Prop :=
  ∀ s : State, s.tmrFired = true →
    s.lnkState ≠ .ready → s.lnkState ≠ .responseReady → s.lnkState ≠ .off →
    ∃ t, exec .lnkPoll s = .next t ∧ answered .host .ok 6 s t ∧ enteredError .timeout s t

/-- R160, the other branch: an expiry found in `Ready`, `ResponseReady` or `Off` is consumed and ignored
(the rule is total, although R41 (e) rules such a state out). -/
def Obligations.PollConsumesAnIgnoredExpiry : Prop :=
  ∀ s : State, undisturbed s = true → s.tmrFired = true → s.decState.terminal = false →
    s.rbRd = s.rbWr → s.lnkState = .ready ∨ s.lnkState = .responseReady ∨ s.lnkState = .off →
    ∃ t, exec .lnkPoll s = .next t ∧ answered .host .ok (s.lnkState.code.setWidth 16) s t ∧
      timerStopped s t ∧ sameDecoder s t ∧ sameSession s t ∧ sameRing s t ∧ sameTransmit s t ∧
      sameMemory s t ∧ sameInputs s t

/-- R159, R161: a poll that finds no timeout and no byte changes nothing. -/
def Obligations.PollWithoutInput : Prop :=
  ∀ s : State, undisturbed s = true → s.tmrFired = false → s.decState.terminal = false →
    s.rbRd = s.rbWr →
    ∃ t, exec .lnkPoll s = .next t ∧
      onlyAnswered .host .ok (s.lnkState.code.setWidth 16) s t

/-- R162, R206: a bad frame, in every session state: one that the decoder holds when the poll starts,
and one that the poll pulls, whole or its remainder, from the ring; what is queued behind it stays queued. -/
def Obligations.PollOfBadFrameEntersError : Prop :=
  (∀ s : State, undisturbed s = true → s.tmrFired = false → s.decState = .error →
    ∃ t, exec .lnkPoll s = .next t ∧ answered .host .ok 6 s t ∧
      enteredError (if s.decErr = .length then .lengthViolation else .checksumMismatch) s t) ∧
  ∀ (s : State) (taken rest : List Byte), ringOk s → undisturbed s = true → s.tmrFired = false →
    queued s = taken ++ rest → (decFeed taken s).decState = .error →
    (∀ k, k < taken.length → (decFeed (taken.take k) s).decState.terminal = false) →
    ∃ t, exec .lnkPoll s = .next t ∧ answered .host .ok 6 s t ∧ timerStopped s t ∧
      decoderCleared t ∧ t.lnkState = .error ∧
      t.lnkErr =
        (if s.lnkState = .error then s.lnkErr
          else if (decFeed taken s).decErr = .length then .lengthViolation else .checksumMismatch) ∧
      t.lnkPending = s.lnkPending ∧ t.lnkExpected = s.lnkExpected ∧ queued t = rest ∧
      sameTransmit s t ∧ sameInputs s t ∧ ∀ sp i, sp ≠ .rxp → memRead sp i t = memRead sp i s

/-- R163: a verified frame in `WaitingForPowerOn`. -/
def Obligations.PollInWaitingForPowerOn : Prop :=
  ∀ s : State, undisturbed s = true → s.tmrFired = false → s.decState = .ready →
    s.lnkState = .waitingForPowerOn →
    ∃ t, exec .lnkPoll s = .next t ∧ t.lnkPending = s.lnkPending ∧ t.lnkExpected = s.lnkExpected ∧
      t.lnkErr = s.lnkErr ∧ sameRing s t ∧ sameTransmit s t ∧ sameMemory s t ∧ sameInputs s t ∧
      (s.rxCommand = s.cfg.pwronDoneCmd →
        answered .host .ok 2 s t ∧ t.lnkState = .ready ∧ timerStopped s t ∧ sameDecoder s t) ∧
      (s.rxCommand ≠ s.cfg.pwronDoneCmd →
        answered .host .ok 1 s t ∧ t.lnkState = .waitingForPowerOn ∧ sameTimer s t ∧
          decoderCleared t)

/-- R164, R146: a verified frame in `WaitingForAcknowledge`. -/
def Obligations.PollInWaitingForAcknowledge : Prop :=
  ∀ s : State, undisturbed s = true → s.tmrFired = false → s.decState = .ready →
    s.lnkState = .waitingForAcknowledge →
    ∃ t, exec .lnkPoll s = .next t ∧
      (s.rxCommand = s.cfg.ackCmd → memRead .rxp 0 s = s.lnkPending →
        answered .host .ok 4 s t ∧ t.lnkState = .waitingForResponse ∧ decoderCleared t ∧
          timerStarted s t ∧ t.lnkPending = s.lnkPending ∧ t.lnkExpected = s.lnkExpected ∧
          t.lnkErr = s.lnkErr ∧ sameRing s t ∧ sameTransmit s t ∧ sameMemory s t ∧ sameInputs s t) ∧
      (s.rxCommand = s.cfg.ackCmd → memRead .rxp 0 s ≠ s.lnkPending →
        answered .host .ok 6 s t ∧ enteredError .unexpectedCommand s t) ∧
      (s.rxCommand ≠ s.cfg.ackCmd →
        answered .host .ok 3 s t ∧ sentAck s t ∧ decoderCleared t ∧ timerStarted s t ∧
          sameSession s t ∧ sameRing s t ∧ sameInputs s t)

/-- R165, R146: a verified frame in `WaitingForResponse`. -/
def Obligations.PollInWaitingForResponse : Prop :=
  ∀ s : State, undisturbed s = true → s.tmrFired = false → s.decState = .ready →
    s.lnkState = .waitingForResponse →
    ∃ t, exec .lnkPoll s = .next t ∧
      (s.rxCommand = s.lnkExpected →
        answered .host .ok 5 s t ∧ sentAck s t ∧ sameDecoder s t ∧ timerStopped s t ∧
          t.lnkState = .responseReady ∧ t.lnkPending = s.lnkPending ∧
          t.lnkExpected = s.lnkExpected ∧ t.lnkErr = s.lnkErr ∧ sameRing s t ∧ sameInputs s t) ∧
      (s.rxCommand ≠ s.lnkExpected →
        answered .host .ok 6 s t ∧ enteredError .unexpectedCommand s t)

/-- R166, R167: a verified frame in the other states: in `ResponseReady` the timer is stopped, in `Off`,
`Ready` and `Error` nothing is done; the frame stays in the decoder. -/
def Obligations.PollKeepsTheFrameElsewhere : Prop :=
  ∀ s : State, undisturbed s = true → s.tmrFired = false → s.decState = .ready →
    ∃ t, exec .lnkPoll s = .next t ∧
      (s.lnkState = .off ∨ s.lnkState = .ready ∨ s.lnkState = .error →
        onlyAnswered .host .ok (s.lnkState.code.setWidth 16) s t) ∧
      (s.lnkState = .responseReady →
        answered .host .ok 5 s t ∧ timerStopped s t ∧ sameDecoder s t ∧ sameSession s t ∧
          sameRing s t ∧ sameTransmit s t ∧ sameMemory s t ∧ sameInputs s t)

/-- R161, R159: the bound on the pull loop is never what ends it, whatever falls into its gaps: with more
micro-steps allowed it does the same, and a micro-step that does not end it is followed by a gap and the
loop from there (the bound is the model's, log entry 18). -/
def Obligations.PullLoopBoundNeverEndsIt : Prop :=
  ∀ s : State, ringOk s →
    (∀ k, pullLoop (pollFuel s + k) s = pullLoop (pollFuel s) s) ∧
    ∀ t st, decStepOp s = (t, some st) → st ≠ .ready → st ≠ .error →
      pullLoop (pollFuel s) s = pullLoop (pollFuel (gap t)) (gap t)

/-- R161, R159, R123 to R132: what a poll pulls. (1) Whatever falls into its gaps, after a micro-step that
does not end the pull loop it goes on as a poll of the state reached, unless an expiry has come meanwhile.
(2) With nothing in its gaps, it takes queued bytes up to the first that ends a frame, each as the decoder
takes it, and goes on as a poll of the state reached: stray bytes, part of a frame, the rest of a frame begun
earlier, a good or a bad frame. (3) So of stray bytes and a whole good frame exactly these. What is queued
behind stays queued. -/
def Obligations.PollPullsQueuedBytes : Prop :=
  (∀ (s t : State) (st : DecState), ringOk s → s.tmrFired = false → (gap s).tmrFired = false →
    decStepOp (gap s) = (t, some st) → st.terminal = false → exec .lnkPoll s = exec .lnkPoll t) ∧
  (∀ (s : State) (taken rest : List Byte), ringOk s → undisturbed s = true → s.tmrFired = false →
    queued s = taken ++ rest →
    (∀ k, k < taken.length → (decFeed (taken.take k) s).decState.terminal = false) →
    ∃ u, exec .lnkPoll s = exec .lnkPoll u ∧ sameDecoder (decFeed taken s) u ∧
      (∀ i, memRead .rxp i u = memRead .rxp i (decFeed taken s)) ∧ pulledFrom rest s u) ∧
  ∀ (s : State) (stray rest payload : List Byte) (dest src cmd : Byte),
    ringOk s → undisturbed s = true → s.tmrFired = false → decoderCleared s →
    s.cfg.frameMarker ∉ stray → 1 ≤ payload.length → payload.length ≤ s.cfg.maxPayload →
    queued s = stray ++ frameBytes s.cfg dest src cmd payload ++ rest →
    ∃ u, exec .lnkPoll s = exec .lnkPoll u ∧ u.decState = .ready ∧ u.rxCommand = cmd ∧
      u.rxLength.toNat = payload.length ∧ memBytes .rxp payload.length u = payload ∧
      pulledFrom rest s u
end

