-- ==== Sys2Proof/Laws/Encoding.lean ====
section
/-! SUPPORT. The fields of a packed operation word and of a length (R83, R90). -/

namespace Sys2Proof

@[simp] theorem opField_packWord (op : Byte) (a : Half) (b : Byte) : opField (packWord op a b) = op := by
  apply BitVec.eq_of_getLsbD_eq
  intro i hi
  simp only [opField, packWord, BitVec.getLsbD_extractLsb', BitVec.getLsbD_append]
  simp [hi, show ¬(24 + i < 8) by omega, show ¬(24 + i - 8 < 16) by omega,
    show 24 + i - 8 - 16 = i by omega]

@[simp] theorem aField_packWord (op : Byte) (a : Half) (b : Byte) : aField (packWord op a b) = a := by
  apply BitVec.eq_of_getLsbD_eq
  intro i hi
  simp only [aField, packWord, BitVec.getLsbD_extractLsb', BitVec.getLsbD_append]
  simp [hi, show ¬(8 + i < 8) by omega, show 8 + i - 8 = i by omega]

@[simp] theorem bField_packWord (op : Byte) (a : Half) (b : Byte) : bField (packWord op a b) = b := by
  apply BitVec.eq_of_getLsbD_eq
  intro i hi
  simp only [bField, packWord, BitVec.getLsbD_extractLsb', BitVec.getLsbD_append]
  simp [hi]

/-- A word is made of its three fields: no bit is outside them. -/
theorem packWord_fields (w : Word) : packWord (opField w) (aField w) (bField w) = w := by
  apply BitVec.eq_of_getLsbD_eq
  intro i hi
  simp only [opField, aField, bField, packWord, BitVec.getLsbD_extractLsb', BitVec.getLsbD_append]
  by_cases h : i < 8
  · simp [h]
  · by_cases h' : i - 8 < 16
    · simp [h, h', show 8 + (i - 8) = i by omega]
    · simp [h, h', show i - 8 - 16 < 8 by omega, show 24 + (i - 8 - 16) = i by omega]

@[simp] theorem lengthOf_high_low (len : Half) : lengthOf (lengthHigh len) (lengthLow len) = len := by
  apply BitVec.eq_of_getLsbD_eq
  intro i hi
  simp only [lengthOf, lengthHigh, lengthLow, BitVec.getLsbD_extractLsb', BitVec.getLsbD_append]
  by_cases h : i < 8
  · simp [h]
  · simp [h, show i - 8 < 8 by omega, show 8 + (i - 8) = i by omega]

/-- The checksums of a concatenation: the second part's swap if the first part has an odd length. -/
theorem parityXor_append (xs ys : List Byte) :
    parityXor (xs ++ ys) =
      if xs.length % 2 = 0 then
        ((parityXor xs).1 ^^^ (parityXor ys).1, (parityXor xs).2 ^^^ (parityXor ys).2)
      else ((parityXor xs).1 ^^^ (parityXor ys).2, (parityXor xs).2 ^^^ (parityXor ys).1) := by
  induction xs with
  | nil => simp [parityXor]
  | cons x xs ih =>
    by_cases h : xs.length % 2 = 0
    · have h' : ¬((xs.length + 1) % 2 = 0) := by omega
      simp only [List.cons_append, parityXor, ih, List.length_cons, if_pos h, if_neg h',
        BitVec.xor_assoc]
    · have h' : (xs.length + 1) % 2 = 0 := by omega
      simp only [List.cons_append, parityXor, ih, List.length_cons, if_neg h, if_pos h',
        BitVec.xor_assoc]

end Sys2Proof
end

