-- ==== Sys2Proof/Laws/Memory.lean ====
section
/-! SUPPORT. The laws of the byte memories: read after write, canonical form kept (R60, R66). -/

namespace Sys2Proof.Machine

theorem Memory.read_write_same (m : Memory) (i : Nat) (v : Byte) :
    (Memory.write m i v).read i = some v := by
  induction m with
  | nil => simp [Memory.write, Memory.read]
  | cons c m ih =>
    obtain ⟨a, b⟩ := c
    simp only [Memory.write]
    split
    · simp [Memory.read]
    · split
      · simp [Memory.read]
      · rename_i h
        simp [Memory.read, Ne.symm h, ih]

theorem Memory.read_write_other (m : Memory) {i j : Nat} (v : Byte) (h : j ≠ i) :
    (Memory.write m i v).read j = m.read j := by
  induction m with
  | nil => simp [Memory.write, Memory.read, Ne.symm h]
  | cons c m ih =>
    obtain ⟨a, b⟩ := c
    simp only [Memory.write]
    split
    · simp [Memory.read, Ne.symm h]
    · split
      · rename_i e
        subst e
        simp [Memory.read, Ne.symm h]
      · simp [Memory.read, ih]

/-- The index of the first cell after a write is the smaller of the one written and the one before. -/
theorem Memory.wf_cons_write (c : Host.Cell) (m : Memory) (i : Nat) (v : Byte)
    (hw : Memory.wf (c :: m) = true) (hi : c.1 < i) : Memory.wf (c :: Memory.write m i v) = true := by
  induction m generalizing c with
  | nil => simp [Memory.write, Memory.wf, hi]
  | cons d m ih =>
    obtain ⟨a, b⟩ := d
    simp only [Memory.wf, Bool.and_eq_true, decide_eq_true_eq] at hw
    simp only [Memory.write]
    split
    · rename_i h
      simp only [Memory.wf, Bool.and_eq_true, decide_eq_true_eq]
      exact ⟨hi, h, hw.2⟩
    · split
      · rename_i e
        subst e
        cases m with
        | nil => simp [Memory.wf, hi]
        | cons e m =>
          simp only [Memory.wf, Bool.and_eq_true, decide_eq_true_eq] at hw ⊢
          exact ⟨hi, hw.2.1, hw.2.2⟩
      · rename_i h₁ h₂
        simp only [Memory.wf, Bool.and_eq_true, decide_eq_true_eq]
        exact ⟨hw.1, ih (a, b) hw.2 (by simp only; omega)⟩

/-- A write keeps the canonical form. -/
theorem Memory.wf_write (m : Memory) (i : Nat) (v : Byte) (hw : m.wf = true) :
    (Memory.write m i v).wf = true := by
  cases m with
  | nil => rfl
  | cons c m =>
    obtain ⟨a, b⟩ := c
    simp only [Memory.write]
    split
    · rename_i h
      simp only [Memory.wf, Bool.and_eq_true, decide_eq_true_eq]
      exact ⟨h, hw⟩
    · split
      · rename_i e
        subst e
        cases m with
        | nil => rfl
        | cons d m => simpa [Memory.wf] using hw
      · exact Memory.wf_cons_write (a, b) m i v hw (by simp only; omega)

/-- The memories of the reset state are in canonical form, and list nothing. -/
theorem State.reset_mem (sp : Space) : State.reset.mem sp = [] := by cases sp <;> rfl

theorem State.reset_mem_wf (sp : Space) : (State.reset.mem sp).wf = true := by cases sp <;> rfl

@[simp] theorem State.mem_setMem_same (s : State) (sp : Space) (m : Memory) :
    (s.setMem sp m).mem sp = m := by cases sp <;> rfl

theorem State.mem_setMem_other (s : State) {sp sp' : Space} (m : Memory) (h : sp' ≠ sp) :
    (s.setMem sp m).mem sp' = s.mem sp' := by
  cases sp <;> cases sp' <;> first | rfl | exact absurd rfl h

@[simp] theorem State.setMem_memEpoch (s : State) (sp : Space) (m : Memory) :
    (s.setMem sp m).memEpoch = s.memEpoch := by cases sp <;> rfl

/-- Every memory operation keeps the canonical form of every memory. -/
theorem memWrite_wf (sp sp' : Space) (i : Nat) (v : Byte) (s : State) (hw : (s.mem sp').wf = true) :
    ((memWrite sp i v s).mem sp').wf = true := by
  by_cases h : sp' = sp
  · subst h
    simpa [memWrite] using Memory.wf_write _ i v hw
  · simpa [memWrite, State.mem_setMem_other s _ h] using hw

/-- What is read after a write: the byte written there, every other byte as before. -/
theorem memRead_memWrite (sp sp' : Space) (i j : Nat) (v : Byte) (s : State) :
    memRead sp' j (memWrite sp i v s) = if sp' = sp ∧ j = i then v else memRead sp' j s := by
  by_cases h : sp' = sp
  · subst h
    by_cases hj : j = i
    · subst hj
      simp [memRead, memWrite, Memory.read_write_same]
    · simp [memRead, memWrite, Memory.read_write_other _ v hj, hj]
  · simp [memRead, memWrite, State.mem_setMem_other s _ h, h]

/-- A read depends on the array and the epoch alone. -/
theorem memRead_congr {s t : State} (sp : Space) (i : Nat) (h : t.mem sp = s.mem sp)
    (he : t.memEpoch = s.memEpoch) : memRead sp i t = memRead sp i s := by
  simp [memRead, h, he]

theorem memBytes_length (sp : Space) (n : Nat) (s : State) : (memBytes sp n s).length = n := by
  simp [memBytes]

end Sys2Proof.Machine
end

