-- ==== Sys2Proof/Laws/State.lean ====
section
/-! SUPPORT. One lemma per field of State for each of the shared updates: what the update makes of the
field. True by rfl and in the simp set, so that no proof unfolds a record update. -/

namespace Sys2Proof.Machine

/-! ## timerStart -/

@[simp] theorem timerStart_cfg (s : State) : (timerStart s).cfg = s.cfg := rfl
@[simp] theorem timerStart_rbRd (s : State) : (timerStart s).rbRd = s.rbRd := rfl
@[simp] theorem timerStart_rbWr (s : State) : (timerStart s).rbWr = s.rbWr := rfl
@[simp] theorem timerStart_rb (s : State) : (timerStart s).rb = s.rb := rfl
@[simp] theorem timerStart_decState (s : State) : (timerStart s).decState = s.decState := rfl
@[simp] theorem timerStart_decCount (s : State) : (timerStart s).decCount = s.decCount := rfl
@[simp] theorem timerStart_decCkEven (s : State) : (timerStart s).decCkEven = s.decCkEven := rfl
@[simp] theorem timerStart_decCkOdd (s : State) : (timerStart s).decCkOdd = s.decCkOdd := rfl
@[simp] theorem timerStart_decCursor (s : State) : (timerStart s).decCursor = s.decCursor := rfl
@[simp] theorem timerStart_decErr (s : State) : (timerStart s).decErr = s.decErr := rfl
@[simp] theorem timerStart_rxCommand (s : State) : (timerStart s).rxCommand = s.rxCommand := rfl
@[simp] theorem timerStart_rxLength (s : State) : (timerStart s).rxLength = s.rxLength := rfl
@[simp] theorem timerStart_rxp (s : State) : (timerStart s).rxp = s.rxp := rfl
@[simp] theorem timerStart_txLen (s : State) : (timerStart s).txLen = s.txLen := rfl
@[simp] theorem timerStart_txp (s : State) : (timerStart s).txp = s.txp := rfl
@[simp] theorem timerStart_lnkState (s : State) : (timerStart s).lnkState = s.lnkState := rfl
@[simp] theorem timerStart_lnkSeq (s : State) : (timerStart s).lnkSeq = s.lnkSeq := rfl
@[simp] theorem timerStart_lnkPending (s : State) : (timerStart s).lnkPending = s.lnkPending := rfl
@[simp] theorem timerStart_lnkExpected (s : State) : (timerStart s).lnkExpected = s.lnkExpected := rfl
@[simp] theorem timerStart_tmrArmed (s : State) : (timerStart s).tmrArmed = true := rfl
@[simp] theorem timerStart_tmrFired (s : State) : (timerStart s).tmrFired = false := rfl
@[simp] theorem timerStart_synchronized (s : State) : (timerStart s).synchronized = s.synchronized := rfl
@[simp] theorem timerStart_lnkErr (s : State) : (timerStart s).lnkErr = s.lnkErr := rfl
@[simp] theorem timerStart_ackb (s : State) : (timerStart s).ackb = s.ackb := rfl
@[simp] theorem timerStart_txStream (s : State) : (timerStart s).txStream = s.txStream := rfl
@[simp] theorem timerStart_tmrLog (s : State) : (timerStart s).tmrLog = s.tmrLog ++ [.start s.cfg.timeoutDuration] := rfl
@[simp] theorem timerStart_results (s : State) : (timerStart s).results = s.results := rfl
@[simp] theorem timerStart_requests (s : State) : (timerStart s).requests = s.requests := rfl
@[simp] theorem timerStart_memEpoch (s : State) : (timerStart s).memEpoch = s.memEpoch := rfl
@[simp] theorem timerStart_rxGen (s : State) : (timerStart s).rxGen = s.rxGen := rfl
@[simp] theorem timerStart_mem (s : State) (sp : Space) : (timerStart s).mem sp = s.mem sp := by
  cases sp <;> rfl
@[simp] theorem memRead_timerStart (sp : Space) (i : Nat) (s : State) :
    memRead sp i (timerStart s) = memRead sp i s := by cases sp <;> rfl

/-! ## timerStop -/

@[simp] theorem timerStop_cfg (s : State) : (timerStop s).cfg = s.cfg := rfl
@[simp] theorem timerStop_rbRd (s : State) : (timerStop s).rbRd = s.rbRd := rfl
@[simp] theorem timerStop_rbWr (s : State) : (timerStop s).rbWr = s.rbWr := rfl
@[simp] theorem timerStop_rb (s : State) : (timerStop s).rb = s.rb := rfl
@[simp] theorem timerStop_decState (s : State) : (timerStop s).decState = s.decState := rfl
@[simp] theorem timerStop_decCount (s : State) : (timerStop s).decCount = s.decCount := rfl
@[simp] theorem timerStop_decCkEven (s : State) : (timerStop s).decCkEven = s.decCkEven := rfl
@[simp] theorem timerStop_decCkOdd (s : State) : (timerStop s).decCkOdd = s.decCkOdd := rfl
@[simp] theorem timerStop_decCursor (s : State) : (timerStop s).decCursor = s.decCursor := rfl
@[simp] theorem timerStop_decErr (s : State) : (timerStop s).decErr = s.decErr := rfl
@[simp] theorem timerStop_rxCommand (s : State) : (timerStop s).rxCommand = s.rxCommand := rfl
@[simp] theorem timerStop_rxLength (s : State) : (timerStop s).rxLength = s.rxLength := rfl
@[simp] theorem timerStop_rxp (s : State) : (timerStop s).rxp = s.rxp := rfl
@[simp] theorem timerStop_txLen (s : State) : (timerStop s).txLen = s.txLen := rfl
@[simp] theorem timerStop_txp (s : State) : (timerStop s).txp = s.txp := rfl
@[simp] theorem timerStop_lnkState (s : State) : (timerStop s).lnkState = s.lnkState := rfl
@[simp] theorem timerStop_lnkSeq (s : State) : (timerStop s).lnkSeq = s.lnkSeq := rfl
@[simp] theorem timerStop_lnkPending (s : State) : (timerStop s).lnkPending = s.lnkPending := rfl
@[simp] theorem timerStop_lnkExpected (s : State) : (timerStop s).lnkExpected = s.lnkExpected := rfl
@[simp] theorem timerStop_tmrArmed (s : State) : (timerStop s).tmrArmed = false := rfl
@[simp] theorem timerStop_tmrFired (s : State) : (timerStop s).tmrFired = false := rfl
@[simp] theorem timerStop_synchronized (s : State) : (timerStop s).synchronized = s.synchronized := rfl
@[simp] theorem timerStop_lnkErr (s : State) : (timerStop s).lnkErr = s.lnkErr := rfl
@[simp] theorem timerStop_ackb (s : State) : (timerStop s).ackb = s.ackb := rfl
@[simp] theorem timerStop_txStream (s : State) : (timerStop s).txStream = s.txStream := rfl
@[simp] theorem timerStop_tmrLog (s : State) : (timerStop s).tmrLog = s.tmrLog ++ [.stop] := rfl
@[simp] theorem timerStop_results (s : State) : (timerStop s).results = s.results := rfl
@[simp] theorem timerStop_requests (s : State) : (timerStop s).requests = s.requests := rfl
@[simp] theorem timerStop_memEpoch (s : State) : (timerStop s).memEpoch = s.memEpoch := rfl
@[simp] theorem timerStop_rxGen (s : State) : (timerStop s).rxGen = s.rxGen := rfl
@[simp] theorem timerStop_mem (s : State) (sp : Space) : (timerStop s).mem sp = s.mem sp := by
  cases sp <;> rfl
@[simp] theorem memRead_timerStop (sp : Space) (i : Nat) (s : State) :
    memRead sp i (timerStop s) = memRead sp i s := by cases sp <;> rfl

/-! ## txEmit -/

@[simp] theorem txEmit_cfg (bs : List Byte) (s : State) : (txEmit bs s).cfg = s.cfg := rfl
@[simp] theorem txEmit_rbRd (bs : List Byte) (s : State) : (txEmit bs s).rbRd = s.rbRd := rfl
@[simp] theorem txEmit_rbWr (bs : List Byte) (s : State) : (txEmit bs s).rbWr = s.rbWr := rfl
@[simp] theorem txEmit_rb (bs : List Byte) (s : State) : (txEmit bs s).rb = s.rb := rfl
@[simp] theorem txEmit_decState (bs : List Byte) (s : State) : (txEmit bs s).decState = s.decState := rfl
@[simp] theorem txEmit_decCount (bs : List Byte) (s : State) : (txEmit bs s).decCount = s.decCount := rfl
@[simp] theorem txEmit_decCkEven (bs : List Byte) (s : State) : (txEmit bs s).decCkEven = s.decCkEven := rfl
@[simp] theorem txEmit_decCkOdd (bs : List Byte) (s : State) : (txEmit bs s).decCkOdd = s.decCkOdd := rfl
@[simp] theorem txEmit_decCursor (bs : List Byte) (s : State) : (txEmit bs s).decCursor = s.decCursor := rfl
@[simp] theorem txEmit_decErr (bs : List Byte) (s : State) : (txEmit bs s).decErr = s.decErr := rfl
@[simp] theorem txEmit_rxCommand (bs : List Byte) (s : State) : (txEmit bs s).rxCommand = s.rxCommand := rfl
@[simp] theorem txEmit_rxLength (bs : List Byte) (s : State) : (txEmit bs s).rxLength = s.rxLength := rfl
@[simp] theorem txEmit_rxp (bs : List Byte) (s : State) : (txEmit bs s).rxp = s.rxp := rfl
@[simp] theorem txEmit_txLen (bs : List Byte) (s : State) : (txEmit bs s).txLen = s.txLen := rfl
@[simp] theorem txEmit_txp (bs : List Byte) (s : State) : (txEmit bs s).txp = s.txp := rfl
@[simp] theorem txEmit_lnkState (bs : List Byte) (s : State) : (txEmit bs s).lnkState = s.lnkState := rfl
@[simp] theorem txEmit_lnkSeq (bs : List Byte) (s : State) : (txEmit bs s).lnkSeq = s.lnkSeq := rfl
@[simp] theorem txEmit_lnkPending (bs : List Byte) (s : State) : (txEmit bs s).lnkPending = s.lnkPending := rfl
@[simp] theorem txEmit_lnkExpected (bs : List Byte) (s : State) : (txEmit bs s).lnkExpected = s.lnkExpected := rfl
@[simp] theorem txEmit_tmrArmed (bs : List Byte) (s : State) : (txEmit bs s).tmrArmed = s.tmrArmed := rfl
@[simp] theorem txEmit_tmrFired (bs : List Byte) (s : State) : (txEmit bs s).tmrFired = s.tmrFired := rfl
@[simp] theorem txEmit_synchronized (bs : List Byte) (s : State) : (txEmit bs s).synchronized = s.synchronized := rfl
@[simp] theorem txEmit_lnkErr (bs : List Byte) (s : State) : (txEmit bs s).lnkErr = s.lnkErr := rfl
@[simp] theorem txEmit_ackb (bs : List Byte) (s : State) : (txEmit bs s).ackb = s.ackb := rfl
@[simp] theorem txEmit_txStream (bs : List Byte) (s : State) : (txEmit bs s).txStream = s.txStream ++ bs := rfl
@[simp] theorem txEmit_tmrLog (bs : List Byte) (s : State) : (txEmit bs s).tmrLog = s.tmrLog := rfl
@[simp] theorem txEmit_results (bs : List Byte) (s : State) : (txEmit bs s).results = s.results := rfl
@[simp] theorem txEmit_requests (bs : List Byte) (s : State) : (txEmit bs s).requests = s.requests := rfl
@[simp] theorem txEmit_memEpoch (bs : List Byte) (s : State) : (txEmit bs s).memEpoch = s.memEpoch := rfl
@[simp] theorem txEmit_rxGen (bs : List Byte) (s : State) : (txEmit bs s).rxGen = s.rxGen := rfl
@[simp] theorem txEmit_mem (bs : List Byte) (s : State) (sp : Space) : (txEmit bs s).mem sp = s.mem sp := by
  cases sp <;> rfl
@[simp] theorem memRead_txEmit (bs : List Byte) (sp : Space) (i : Nat) (s : State) :
    memRead sp i (txEmit bs s) = memRead sp i s := by cases sp <;> rfl

/-! ## answer -/

@[simp] theorem answer_cfg (p : Port) (st : Status) (v : Half) (s : State) : (answer p st v s).cfg = s.cfg := rfl
@[simp] theorem answer_rbRd (p : Port) (st : Status) (v : Half) (s : State) : (answer p st v s).rbRd = s.rbRd := rfl
@[simp] theorem answer_rbWr (p : Port) (st : Status) (v : Half) (s : State) : (answer p st v s).rbWr = s.rbWr := rfl
@[simp] theorem answer_rb (p : Port) (st : Status) (v : Half) (s : State) : (answer p st v s).rb = s.rb := rfl
@[simp] theorem answer_decState (p : Port) (st : Status) (v : Half) (s : State) : (answer p st v s).decState = s.decState := rfl
@[simp] theorem answer_decCount (p : Port) (st : Status) (v : Half) (s : State) : (answer p st v s).decCount = s.decCount := rfl
@[simp] theorem answer_decCkEven (p : Port) (st : Status) (v : Half) (s : State) : (answer p st v s).decCkEven = s.decCkEven := rfl
@[simp] theorem answer_decCkOdd (p : Port) (st : Status) (v : Half) (s : State) : (answer p st v s).decCkOdd = s.decCkOdd := rfl
@[simp] theorem answer_decCursor (p : Port) (st : Status) (v : Half) (s : State) : (answer p st v s).decCursor = s.decCursor := rfl
@[simp] theorem answer_decErr (p : Port) (st : Status) (v : Half) (s : State) : (answer p st v s).decErr = s.decErr := rfl
@[simp] theorem answer_rxCommand (p : Port) (st : Status) (v : Half) (s : State) : (answer p st v s).rxCommand = s.rxCommand := rfl
@[simp] theorem answer_rxLength (p : Port) (st : Status) (v : Half) (s : State) : (answer p st v s).rxLength = s.rxLength := rfl
@[simp] theorem answer_rxp (p : Port) (st : Status) (v : Half) (s : State) : (answer p st v s).rxp = s.rxp := rfl
@[simp] theorem answer_txLen (p : Port) (st : Status) (v : Half) (s : State) : (answer p st v s).txLen = s.txLen := rfl
@[simp] theorem answer_txp (p : Port) (st : Status) (v : Half) (s : State) : (answer p st v s).txp = s.txp := rfl
@[simp] theorem answer_lnkState (p : Port) (st : Status) (v : Half) (s : State) : (answer p st v s).lnkState = s.lnkState := rfl
@[simp] theorem answer_lnkSeq (p : Port) (st : Status) (v : Half) (s : State) : (answer p st v s).lnkSeq = s.lnkSeq := rfl
@[simp] theorem answer_lnkPending (p : Port) (st : Status) (v : Half) (s : State) : (answer p st v s).lnkPending = s.lnkPending := rfl
@[simp] theorem answer_lnkExpected (p : Port) (st : Status) (v : Half) (s : State) : (answer p st v s).lnkExpected = s.lnkExpected := rfl
@[simp] theorem answer_tmrArmed (p : Port) (st : Status) (v : Half) (s : State) : (answer p st v s).tmrArmed = s.tmrArmed := rfl
@[simp] theorem answer_tmrFired (p : Port) (st : Status) (v : Half) (s : State) : (answer p st v s).tmrFired = s.tmrFired := rfl
@[simp] theorem answer_synchronized (p : Port) (st : Status) (v : Half) (s : State) : (answer p st v s).synchronized = s.synchronized := rfl
@[simp] theorem answer_lnkErr (p : Port) (st : Status) (v : Half) (s : State) : (answer p st v s).lnkErr = s.lnkErr := rfl
@[simp] theorem answer_ackb (p : Port) (st : Status) (v : Half) (s : State) : (answer p st v s).ackb = s.ackb := rfl
@[simp] theorem answer_txStream (p : Port) (st : Status) (v : Half) (s : State) : (answer p st v s).txStream = s.txStream := rfl
@[simp] theorem answer_tmrLog (p : Port) (st : Status) (v : Half) (s : State) : (answer p st v s).tmrLog = s.tmrLog := rfl
@[simp] theorem answer_results (p : Port) (st : Status) (v : Half) (s : State) : (answer p st v s).results = s.results ++ [⟨p, resultWord st v⟩] := rfl
@[simp] theorem answer_requests (p : Port) (st : Status) (v : Half) (s : State) : (answer p st v s).requests = s.requests := rfl
@[simp] theorem answer_memEpoch (p : Port) (st : Status) (v : Half) (s : State) : (answer p st v s).memEpoch = s.memEpoch := rfl
@[simp] theorem answer_rxGen (p : Port) (st : Status) (v : Half) (s : State) : (answer p st v s).rxGen = s.rxGen := rfl
@[simp] theorem answer_mem (p : Port) (st : Status) (v : Half) (s : State) (sp : Space) : (answer p st v s).mem sp = s.mem sp := by
  cases sp <;> rfl
@[simp] theorem memRead_answer (p : Port) (st : Status) (v : Half) (sp : Space) (i : Nat) (s : State) :
    memRead sp i (answer p st v s) = memRead sp i s := by cases sp <;> rfl

/-! ## decReset -/

@[simp] theorem decReset_cfg (s : State) : (decReset s).cfg = s.cfg := rfl
@[simp] theorem decReset_rbRd (s : State) : (decReset s).rbRd = s.rbRd := rfl
@[simp] theorem decReset_rbWr (s : State) : (decReset s).rbWr = s.rbWr := rfl
@[simp] theorem decReset_rb (s : State) : (decReset s).rb = s.rb := rfl
@[simp] theorem decReset_decState (s : State) : (decReset s).decState = .noFrame := rfl
@[simp] theorem decReset_decCount (s : State) : (decReset s).decCount = 0 := rfl
@[simp] theorem decReset_decCkEven (s : State) : (decReset s).decCkEven = 0 := rfl
@[simp] theorem decReset_decCkOdd (s : State) : (decReset s).decCkOdd = 0 := rfl
@[simp] theorem decReset_decCursor (s : State) : (decReset s).decCursor = 0 := rfl
@[simp] theorem decReset_decErr (s : State) : (decReset s).decErr = .none := rfl
@[simp] theorem decReset_rxCommand (s : State) : (decReset s).rxCommand = 0 := rfl
@[simp] theorem decReset_rxLength (s : State) : (decReset s).rxLength = 0 := rfl
@[simp] theorem decReset_rxp (s : State) : (decReset s).rxp = s.rxp := rfl
@[simp] theorem decReset_txLen (s : State) : (decReset s).txLen = s.txLen := rfl
@[simp] theorem decReset_txp (s : State) : (decReset s).txp = s.txp := rfl
@[simp] theorem decReset_lnkState (s : State) : (decReset s).lnkState = s.lnkState := rfl
@[simp] theorem decReset_lnkSeq (s : State) : (decReset s).lnkSeq = s.lnkSeq := rfl
@[simp] theorem decReset_lnkPending (s : State) : (decReset s).lnkPending = s.lnkPending := rfl
@[simp] theorem decReset_lnkExpected (s : State) : (decReset s).lnkExpected = s.lnkExpected := rfl
@[simp] theorem decReset_tmrArmed (s : State) : (decReset s).tmrArmed = s.tmrArmed := rfl
@[simp] theorem decReset_tmrFired (s : State) : (decReset s).tmrFired = s.tmrFired := rfl
@[simp] theorem decReset_synchronized (s : State) : (decReset s).synchronized = s.synchronized := rfl
@[simp] theorem decReset_lnkErr (s : State) : (decReset s).lnkErr = s.lnkErr := rfl
@[simp] theorem decReset_ackb (s : State) : (decReset s).ackb = s.ackb := rfl
@[simp] theorem decReset_txStream (s : State) : (decReset s).txStream = s.txStream := rfl
@[simp] theorem decReset_tmrLog (s : State) : (decReset s).tmrLog = s.tmrLog := rfl
@[simp] theorem decReset_results (s : State) : (decReset s).results = s.results := rfl
@[simp] theorem decReset_requests (s : State) : (decReset s).requests = s.requests := rfl
@[simp] theorem decReset_memEpoch (s : State) : (decReset s).memEpoch = s.memEpoch := rfl
@[simp] theorem decReset_rxGen (s : State) : (decReset s).rxGen = s.rxGen + 1 := rfl
@[simp] theorem decReset_mem (s : State) (sp : Space) : (decReset s).mem sp = s.mem sp := by
  cases sp <;> rfl
@[simp] theorem memRead_decReset (sp : Space) (i : Nat) (s : State) :
    memRead sp i (decReset s) = memRead sp i s := by cases sp <;> rfl

/-! ## ringPop -/

@[simp] theorem ringPop_cfg (s : State) : (ringPop s).cfg = s.cfg := rfl
@[simp] theorem ringPop_rbRd (s : State) : (ringPop s).rbRd = nextIndex s.cfg s.rbRd := rfl
@[simp] theorem ringPop_rbWr (s : State) : (ringPop s).rbWr = s.rbWr := rfl
@[simp] theorem ringPop_rb (s : State) : (ringPop s).rb = s.rb := rfl
@[simp] theorem ringPop_decState (s : State) : (ringPop s).decState = s.decState := rfl
@[simp] theorem ringPop_decCount (s : State) : (ringPop s).decCount = s.decCount := rfl
@[simp] theorem ringPop_decCkEven (s : State) : (ringPop s).decCkEven = s.decCkEven := rfl
@[simp] theorem ringPop_decCkOdd (s : State) : (ringPop s).decCkOdd = s.decCkOdd := rfl
@[simp] theorem ringPop_decCursor (s : State) : (ringPop s).decCursor = s.decCursor := rfl
@[simp] theorem ringPop_decErr (s : State) : (ringPop s).decErr = s.decErr := rfl
@[simp] theorem ringPop_rxCommand (s : State) : (ringPop s).rxCommand = s.rxCommand := rfl
@[simp] theorem ringPop_rxLength (s : State) : (ringPop s).rxLength = s.rxLength := rfl
@[simp] theorem ringPop_rxp (s : State) : (ringPop s).rxp = s.rxp := rfl
@[simp] theorem ringPop_txLen (s : State) : (ringPop s).txLen = s.txLen := rfl
@[simp] theorem ringPop_txp (s : State) : (ringPop s).txp = s.txp := rfl
@[simp] theorem ringPop_lnkState (s : State) : (ringPop s).lnkState = s.lnkState := rfl
@[simp] theorem ringPop_lnkSeq (s : State) : (ringPop s).lnkSeq = s.lnkSeq := rfl
@[simp] theorem ringPop_lnkPending (s : State) : (ringPop s).lnkPending = s.lnkPending := rfl
@[simp] theorem ringPop_lnkExpected (s : State) : (ringPop s).lnkExpected = s.lnkExpected := rfl
@[simp] theorem ringPop_tmrArmed (s : State) : (ringPop s).tmrArmed = s.tmrArmed := rfl
@[simp] theorem ringPop_tmrFired (s : State) : (ringPop s).tmrFired = s.tmrFired := rfl
@[simp] theorem ringPop_synchronized (s : State) : (ringPop s).synchronized = s.synchronized := rfl
@[simp] theorem ringPop_lnkErr (s : State) : (ringPop s).lnkErr = s.lnkErr := rfl
@[simp] theorem ringPop_ackb (s : State) : (ringPop s).ackb = s.ackb := rfl
@[simp] theorem ringPop_txStream (s : State) : (ringPop s).txStream = s.txStream := rfl
@[simp] theorem ringPop_tmrLog (s : State) : (ringPop s).tmrLog = s.tmrLog := rfl
@[simp] theorem ringPop_results (s : State) : (ringPop s).results = s.results := rfl
@[simp] theorem ringPop_requests (s : State) : (ringPop s).requests = s.requests := rfl
@[simp] theorem ringPop_memEpoch (s : State) : (ringPop s).memEpoch = s.memEpoch := rfl
@[simp] theorem ringPop_rxGen (s : State) : (ringPop s).rxGen = s.rxGen := rfl
@[simp] theorem ringPop_mem (s : State) (sp : Space) : (ringPop s).mem sp = s.mem sp := by
  cases sp <;> rfl
@[simp] theorem memRead_ringPop (sp : Space) (i : Nat) (s : State) :
    memRead sp i (ringPop s) = memRead sp i s := by cases sp <;> rfl

/-! ## renewRx -/

@[simp] theorem renewRx_cfg (s : State) : (renewRx s).cfg = s.cfg := rfl
@[simp] theorem renewRx_rbRd (s : State) : (renewRx s).rbRd = s.rbRd := rfl
@[simp] theorem renewRx_rbWr (s : State) : (renewRx s).rbWr = s.rbWr := rfl
@[simp] theorem renewRx_rb (s : State) : (renewRx s).rb = s.rb := rfl
@[simp] theorem renewRx_decState (s : State) : (renewRx s).decState = s.decState := rfl
@[simp] theorem renewRx_decCount (s : State) : (renewRx s).decCount = s.decCount := rfl
@[simp] theorem renewRx_decCkEven (s : State) : (renewRx s).decCkEven = s.decCkEven := rfl
@[simp] theorem renewRx_decCkOdd (s : State) : (renewRx s).decCkOdd = s.decCkOdd := rfl
@[simp] theorem renewRx_decCursor (s : State) : (renewRx s).decCursor = s.decCursor := rfl
@[simp] theorem renewRx_decErr (s : State) : (renewRx s).decErr = s.decErr := rfl
@[simp] theorem renewRx_rxCommand (s : State) : (renewRx s).rxCommand = s.rxCommand := rfl
@[simp] theorem renewRx_rxLength (s : State) : (renewRx s).rxLength = s.rxLength := rfl
@[simp] theorem renewRx_rxp (s : State) : (renewRx s).rxp = s.rxp := rfl
@[simp] theorem renewRx_txLen (s : State) : (renewRx s).txLen = s.txLen := rfl
@[simp] theorem renewRx_txp (s : State) : (renewRx s).txp = s.txp := rfl
@[simp] theorem renewRx_lnkState (s : State) : (renewRx s).lnkState = s.lnkState := rfl
@[simp] theorem renewRx_lnkSeq (s : State) : (renewRx s).lnkSeq = s.lnkSeq := rfl
@[simp] theorem renewRx_lnkPending (s : State) : (renewRx s).lnkPending = s.lnkPending := rfl
@[simp] theorem renewRx_lnkExpected (s : State) : (renewRx s).lnkExpected = s.lnkExpected := rfl
@[simp] theorem renewRx_tmrArmed (s : State) : (renewRx s).tmrArmed = s.tmrArmed := rfl
@[simp] theorem renewRx_tmrFired (s : State) : (renewRx s).tmrFired = s.tmrFired := rfl
@[simp] theorem renewRx_synchronized (s : State) : (renewRx s).synchronized = s.synchronized := rfl
@[simp] theorem renewRx_lnkErr (s : State) : (renewRx s).lnkErr = s.lnkErr := rfl
@[simp] theorem renewRx_ackb (s : State) : (renewRx s).ackb = s.ackb := rfl
@[simp] theorem renewRx_txStream (s : State) : (renewRx s).txStream = s.txStream := rfl
@[simp] theorem renewRx_tmrLog (s : State) : (renewRx s).tmrLog = s.tmrLog := rfl
@[simp] theorem renewRx_results (s : State) : (renewRx s).results = s.results := rfl
@[simp] theorem renewRx_requests (s : State) : (renewRx s).requests = s.requests := rfl
@[simp] theorem renewRx_memEpoch (s : State) : (renewRx s).memEpoch = s.memEpoch := rfl
@[simp] theorem renewRx_rxGen (s : State) : (renewRx s).rxGen = s.rxGen + 1 := rfl
@[simp] theorem renewRx_mem (s : State) (sp : Space) : (renewRx s).mem sp = s.mem sp := by
  cases sp <;> rfl
@[simp] theorem memRead_renewRx (sp : Space) (i : Nat) (s : State) :
    memRead sp i (renewRx s) = memRead sp i s := by cases sp <;> rfl

/-! ## memWrite: every field that is no memory -/

@[simp] theorem memWrite_cfg (sp : Space) (i : Nat) (v : Byte) (s : State) :
    (memWrite sp i v s).cfg = s.cfg := by cases sp <;> rfl
@[simp] theorem memWrite_rbRd (sp : Space) (i : Nat) (v : Byte) (s : State) :
    (memWrite sp i v s).rbRd = s.rbRd := by cases sp <;> rfl
@[simp] theorem memWrite_rbWr (sp : Space) (i : Nat) (v : Byte) (s : State) :
    (memWrite sp i v s).rbWr = s.rbWr := by cases sp <;> rfl
@[simp] theorem memWrite_decState (sp : Space) (i : Nat) (v : Byte) (s : State) :
    (memWrite sp i v s).decState = s.decState := by cases sp <;> rfl
@[simp] theorem memWrite_decCount (sp : Space) (i : Nat) (v : Byte) (s : State) :
    (memWrite sp i v s).decCount = s.decCount := by cases sp <;> rfl
@[simp] theorem memWrite_decCkEven (sp : Space) (i : Nat) (v : Byte) (s : State) :
    (memWrite sp i v s).decCkEven = s.decCkEven := by cases sp <;> rfl
@[simp] theorem memWrite_decCkOdd (sp : Space) (i : Nat) (v : Byte) (s : State) :
    (memWrite sp i v s).decCkOdd = s.decCkOdd := by cases sp <;> rfl
@[simp] theorem memWrite_decCursor (sp : Space) (i : Nat) (v : Byte) (s : State) :
    (memWrite sp i v s).decCursor = s.decCursor := by cases sp <;> rfl
@[simp] theorem memWrite_decErr (sp : Space) (i : Nat) (v : Byte) (s : State) :
    (memWrite sp i v s).decErr = s.decErr := by cases sp <;> rfl
@[simp] theorem memWrite_rxCommand (sp : Space) (i : Nat) (v : Byte) (s : State) :
    (memWrite sp i v s).rxCommand = s.rxCommand := by cases sp <;> rfl
@[simp] theorem memWrite_rxLength (sp : Space) (i : Nat) (v : Byte) (s : State) :
    (memWrite sp i v s).rxLength = s.rxLength := by cases sp <;> rfl
@[simp] theorem memWrite_txLen (sp : Space) (i : Nat) (v : Byte) (s : State) :
    (memWrite sp i v s).txLen = s.txLen := by cases sp <;> rfl
@[simp] theorem memWrite_lnkState (sp : Space) (i : Nat) (v : Byte) (s : State) :
    (memWrite sp i v s).lnkState = s.lnkState := by cases sp <;> rfl
@[simp] theorem memWrite_lnkSeq (sp : Space) (i : Nat) (v : Byte) (s : State) :
    (memWrite sp i v s).lnkSeq = s.lnkSeq := by cases sp <;> rfl
@[simp] theorem memWrite_lnkPending (sp : Space) (i : Nat) (v : Byte) (s : State) :
    (memWrite sp i v s).lnkPending = s.lnkPending := by cases sp <;> rfl
@[simp] theorem memWrite_lnkExpected (sp : Space) (i : Nat) (v : Byte) (s : State) :
    (memWrite sp i v s).lnkExpected = s.lnkExpected := by cases sp <;> rfl
@[simp] theorem memWrite_tmrArmed (sp : Space) (i : Nat) (v : Byte) (s : State) :
    (memWrite sp i v s).tmrArmed = s.tmrArmed := by cases sp <;> rfl
@[simp] theorem memWrite_tmrFired (sp : Space) (i : Nat) (v : Byte) (s : State) :
    (memWrite sp i v s).tmrFired = s.tmrFired := by cases sp <;> rfl
@[simp] theorem memWrite_synchronized (sp : Space) (i : Nat) (v : Byte) (s : State) :
    (memWrite sp i v s).synchronized = s.synchronized := by cases sp <;> rfl
@[simp] theorem memWrite_lnkErr (sp : Space) (i : Nat) (v : Byte) (s : State) :
    (memWrite sp i v s).lnkErr = s.lnkErr := by cases sp <;> rfl
@[simp] theorem memWrite_txStream (sp : Space) (i : Nat) (v : Byte) (s : State) :
    (memWrite sp i v s).txStream = s.txStream := by cases sp <;> rfl
@[simp] theorem memWrite_tmrLog (sp : Space) (i : Nat) (v : Byte) (s : State) :
    (memWrite sp i v s).tmrLog = s.tmrLog := by cases sp <;> rfl
@[simp] theorem memWrite_results (sp : Space) (i : Nat) (v : Byte) (s : State) :
    (memWrite sp i v s).results = s.results := by cases sp <;> rfl
@[simp] theorem memWrite_requests (sp : Space) (i : Nat) (v : Byte) (s : State) :
    (memWrite sp i v s).requests = s.requests := by cases sp <;> rfl
@[simp] theorem memWrite_memEpoch (sp : Space) (i : Nat) (v : Byte) (s : State) :
    (memWrite sp i v s).memEpoch = s.memEpoch := by cases sp <;> rfl
@[simp] theorem memWrite_rxGen (sp : Space) (i : Nat) (v : Byte) (s : State) :
    (memWrite sp i v s).rxGen = s.rxGen := by cases sp <;> rfl

end Sys2Proof.Machine
end

