-- ==== Sys2Proof/Laws/Ops.lean ====
section
/-! SUPPORT. For each shared operation one lemma that says once everything it can do. -/

namespace Sys2Proof.Machine

/-! ## Errors and session -/

/-- The whole of the error entry (R206). -/
theorem enterError_eq (kind : LnkErr) (s : State) :
    enterError kind s =
      { s with
        tmrArmed := false
        tmrFired := false
        tmrLog := s.tmrLog ++ [.stop]
        decState := .noFrame
        decCount := 0
        decCkEven := 0
        decCkOdd := 0
        decCursor := 0
        decErr := .none
        rxCommand := 0
        rxLength := 0
        rxGen := s.rxGen + 1
        lnkErr := if s.lnkState = .error then s.lnkErr else kind
        lnkState := .error } := rfl

/-- The whole of the reinitialisation (R156). -/
theorem sessionInit_eq (s : State) :
    sessionInit s =
      { s with
        tmrArmed := false
        tmrFired := false
        tmrLog := s.tmrLog ++ [.stop]
        decState := .noFrame
        decCount := 0
        decCkEven := 0
        decCkOdd := 0
        decCursor := 0
        decErr := .none
        rxCommand := 0
        rxLength := 0
        rxGen := s.rxGen + 1
        lnkState := .off
        lnkSeq := 0
        lnkPending := 0
        lnkExpected := 0
        lnkErr := .none } := rfl

/-! ## The ring -/

/-- `RB_WRITE` answers `FULL` and changes nothing else, or pushes the byte and answers `OK`. -/
theorem rbWriteOp_cases (b : Byte) (s : State) :
    (ringFull s = true ∧ rbWriteOp b s = answer .producer .full 0 s) ∨
      (ringFull s = false ∧ rbWriteOp b s = answer .producer .ok 0 (ringPush b s)) := by
  unfold rbWriteOp
  split <;> simp_all

/-- A push writes one slot and the write index. -/
theorem ringPush_eq (b : Byte) (s : State) :
    ringPush b s = { s with rb := Memory.write s.rb s.rbWr b, rbWr := nextIndex s.cfg s.rbWr } := rfl

/-- What the producer can do to the state: the ring's storage, its write index, one more result. -/
theorem rbWriteOp_frame (b : Byte) (s : State) :
    ∃ m i r, rbWriteOp b s = { s with rb := m, rbWr := i, results := s.results ++ [r] } := by
  rcases rbWriteOp_cases b s with ⟨-, h⟩ | ⟨-, h⟩
  · exact ⟨s.rb, s.rbWr, _, h⟩
  · exact ⟨_, _, _, h⟩

theorem feed_nil (s : State) : feed [] s = s := rfl

theorem feed_cons (b : Byte) (bs : List Byte) (s : State) : feed (b :: bs) s = feed bs (rbWriteOp b s) :=
  rfl

/-- What several received bytes can do to the state. -/
theorem feed_frame (bs : List Byte) (s : State) :
    ∃ m i rs, feed bs s = { s with rb := m, rbWr := i, results := s.results ++ rs } := by
  induction bs generalizing s with
  | nil => exact ⟨s.rb, s.rbWr, [], by simp [feed]⟩
  | cons b bs ih =>
    obtain ⟨m, i, r, h⟩ := rbWriteOp_frame b s
    obtain ⟨m', i', rs, h'⟩ := ih (rbWriteOp b s)
    refine ⟨m', i', r :: rs, ?_⟩
    rw [feed_cons, h', h]
    simp

/-! ## Events inside a poll -/

/-- What an input of the producer or the timer can do to the state (R68, R72): the ring's storage, its
write index, the flag, one more result. -/
theorem takeEventWord_frame (p : Port) (w : Word) (s : State) :
    ∃ m i f rs, takeEventWord p w s =
      { s with rb := m, rbWr := i, tmrFired := f, results := s.results ++ rs } := by
  unfold takeEventWord
  split
  · split
    · rename_i b _ _
      obtain ⟨m, i, r, h⟩ := rbWriteOp_frame b s
      exact ⟨m, i, s.tmrFired, [r], by rw [h]⟩
    · exact ⟨s.rb, s.rbWr, s.tmrFired, _, rfl⟩
  · split
    · unfold tmrExpireOp
      split
      · exact ⟨s.rb, s.rbWr, true, _, rfl⟩
      · exact ⟨s.rb, s.rbWr, s.tmrFired, _, rfl⟩
    · exact ⟨s.rb, s.rbWr, s.tmrFired, _, rfl⟩
  · exact ⟨s.rb, s.rbWr, s.tmrFired, _, rfl⟩

/-- Leaving the inputs as they are is one of the things a gap can do. -/
theorem requests_frame (s : State) (left : List Request) :
    ∃ m i f out left', ({ s with requests := left } : State) =
      { s with rb := m, rbWr := i, tmrFired := f, results := s.results ++ out, requests := left' } :=
  ⟨s.rb, s.rbWr, s.tmrFired, [], left, by simp⟩

/-- What the inputs that fall into a gap can do to the state. -/
theorem takeEvents_frame (rs : List Request) (s : State) :
    ∃ m i f out left, takeEvents rs s =
      { s with rb := m, rbWr := i, tmrFired := f, results := s.results ++ out, requests := left } := by
  fun_induction takeEvents rs s with
  | case2 w rest s ih =>
    obtain ⟨m, i, f, out, h⟩ := takeEventWord_frame .producer w s
    obtain ⟨m', i', f', out', left, h'⟩ := ih
    exact ⟨m', i', f', out ++ out', left, by rw [h', h]; simp⟩
  | case3 w rest s ih =>
    obtain ⟨m, i, f, out, h⟩ := takeEventWord_frame .timer w s
    obtain ⟨m', i', f', out', left, h'⟩ := ih
    exact ⟨m', i', f', out ++ out', left, by rw [h', h]; simp⟩
  | case4 bs rest s ih =>
    obtain ⟨m, i, out, h⟩ := feed_frame bs s
    obtain ⟨m', i', f', out', left, h'⟩ := ih
    exact ⟨m', i', f', out ++ out', left, by rw [h', h]; simp⟩
  | _ => exact requests_frame _ _

/-- What a gap can do to the state. -/
theorem gap_frame (s : State) :
    ∃ m i f out left, gap s =
      { s with rb := m, rbWr := i, tmrFired := f, results := s.results ++ out, requests := left } :=
  takeEvents_frame s.requests s

/-- An undisturbed gap does nothing. -/
theorem gap_of_undisturbed (s : State) (h : undisturbed s = true) : gap s = s := by
  obtain ⟨cfg, rbRd, rbWr, rb, ds, dc, e, o, cu, de, rc, rl, rxp, tl, txp, ls, sq, pe, ex, ar, fi, sy,
    le, ak, tx, tm, res, reqs, me, rg⟩ := s
  match reqs with
  | [] => rfl
  | .reset :: rest => rfl
  | .frame bs none :: rest => rfl
  | .frame bs (some k) :: rest => exact absurd h (by simp [undisturbed])
  | .word .host w none :: rest => rfl
  | .word .host w (some 0) :: rest => rfl
  | .word .host w (some (k + 1)) :: rest => rfl
  | .word .producer w none :: rest => rfl
  | .word .producer w (some k) :: rest => exact absurd h (by simp [undisturbed])
  | .word .timer w none :: rest => rfl
  | .word .timer w (some k) :: rest => exact absurd h (by simp [undisturbed])

/-! ## The decoder -/

/-- What one byte can do to the state: the decoder's registers and the receive payload. -/
theorem decConsume_frame (b : Byte) (s : State) :
    ∃ st c e o cu er cm l m, decConsume b s =
      { s with
        decState := st
        decCount := c
        decCkEven := e
        decCkOdd := o
        decCursor := cu
        decErr := er
        rxCommand := cm
        rxLength := l
        rxp := m } := by
  unfold decConsume
  split <;>
    (try simp only [decLengthLow, decPayload, decChecksum, decFail, countByte, accumulate, memWrite,
      State.setMem]) <;>
    repeat' split
  all_goals exact ⟨_, _, _, _, _, _, _, _, _, rfl⟩

/-- The terminal states are `Ready` and `Error` (R23). -/
theorem terminal_cases {st : DecState} (h : st.terminal = true) : st = .ready ∨ st = .error := by
  cases st <;> simp_all [DecState.terminal]

/-- What a `DEC_STEP` can do: nothing in a terminal state, nothing without a byte, or one byte taken and
consumed. -/
theorem decStepOp_cases (s : State) :
    (s.decState.terminal = true ∧ decStepOp s = (s, some s.decState)) ∨
      (s.decState.terminal = false ∧ ringEmpty s = true ∧ decStepOp s = (s, none)) ∨
      (s.decState.terminal = false ∧ ringEmpty s = false ∧
        decStepOp s =
          (renewRx (decConsume (ringFront s) (ringPop s)),
            some (renewRx (decConsume (ringFront s) (ringPop s))).decState)) := by
  unfold decStepOp
  split
  · exact .inl ⟨‹_›, rfl⟩
  · split
    · exact .inr (.inl ⟨by simp_all, ‹_›, rfl⟩)
    · exact .inr (.inr ⟨by simp_all, by simp_all, rfl⟩)

/-- What the pull loop leaves alone, whatever falls into its gaps: parameters, session, transmit side,
memories of the transmit side, the timer's arming and log. -/
theorem pullLoop_frame (fuel : Nat) (s : State) :
    (pullLoop fuel s).1.cfg = s.cfg ∧ (pullLoop fuel s).1.lnkState = s.lnkState ∧
      (pullLoop fuel s).1.lnkSeq = s.lnkSeq ∧ (pullLoop fuel s).1.lnkPending = s.lnkPending ∧
      (pullLoop fuel s).1.lnkExpected = s.lnkExpected ∧ (pullLoop fuel s).1.lnkErr = s.lnkErr ∧
      (pullLoop fuel s).1.synchronized = s.synchronized ∧ (pullLoop fuel s).1.txLen = s.txLen ∧
      (pullLoop fuel s).1.txp = s.txp ∧ (pullLoop fuel s).1.ackb = s.ackb ∧
      (pullLoop fuel s).1.txStream = s.txStream ∧ (pullLoop fuel s).1.tmrArmed = s.tmrArmed ∧
      (pullLoop fuel s).1.tmrLog = s.tmrLog ∧ (pullLoop fuel s).1.memEpoch = s.memEpoch ∧
      s.results <+: (pullLoop fuel s).1.results := by
  induction fuel generalizing s with
  | zero => simp [pullLoop]
  | succ n ih =>
    have key : ∀ u : State, (u = s ∨ u = renewRx (decConsume (ringFront s) (ringPop s))) →
        (gap u).cfg = s.cfg ∧ (gap u).lnkState = s.lnkState ∧ (gap u).lnkSeq = s.lnkSeq ∧
          (gap u).lnkPending = s.lnkPending ∧ (gap u).lnkExpected = s.lnkExpected ∧
          (gap u).lnkErr = s.lnkErr ∧ (gap u).synchronized = s.synchronized ∧
          (gap u).txLen = s.txLen ∧ (gap u).txp = s.txp ∧ (gap u).ackb = s.ackb ∧
          (gap u).txStream = s.txStream ∧ (gap u).tmrArmed = s.tmrArmed ∧
          (gap u).tmrLog = s.tmrLog ∧ (gap u).memEpoch = s.memEpoch ∧
          s.results <+: (gap u).results := by
      intro u hu
      obtain ⟨m, i, f, out, left, hg⟩ := gap_frame u
      obtain ⟨_, _, _, _, _, _, _, _, _, hc⟩ := decConsume_frame (ringFront s) (ringPop s)
      rcases hu with rfl | rfl
      · rw [hg]; simp
      · rw [hg, hc]; simp [renewRx]
    have stop : ∀ u r, (u = s ∨ u = renewRx (decConsume (ringFront s) (ringPop s))) →
        decStepOp s = (u, r) → (r = none ∨ r = some .ready ∨ r = some .error) →
        pullLoop (n + 1) s = (gap u, r) := by
      rintro u r - h (rfl | rfl | rfl) <;> simp [pullLoop, h]
    have go : ∀ u st, decStepOp s = (u, some st) → st ≠ .ready → st ≠ .error →
        pullLoop (n + 1) s = pullLoop n (gap u) := by
      intro u st h h1 h2
      cases st <;> simp_all [pullLoop]
    rcases decStepOp_cases s with ⟨ht, h⟩ | ⟨-, -, h⟩ | ⟨-, -, h⟩
    · have hr := terminal_cases ht
      have hr' : some s.decState = none ∨ some s.decState = some .ready ∨
          some s.decState = some .error := .inr (hr.imp (congrArg some) (congrArg some))
      rw [stop s _ (.inl rfl) h hr']
      exact key s (.inl rfl)
    · rw [stop s _ (.inl rfl) h (.inl rfl)]
      exact key s (.inl rfl)
    · by_cases h1 : (renewRx (decConsume (ringFront s) (ringPop s))).decState = .ready
      · rw [stop _ _ (.inr rfl) h (.inr (.inl (by rw [h1])))]
        exact key _ (.inr rfl)
      · by_cases h2 : (renewRx (decConsume (ringFront s) (ringPop s))).decState = .error
        · rw [stop _ _ (.inr rfl) h (.inr (.inr (by rw [h2])))]
          exact key _ (.inr rfl)
        · rw [go _ _ h h1 h2]
          have hk := key _ (.inr rfl)
          have hi := ih (gap (renewRx (decConsume (ringFront s) (ringPop s))))
          refine ⟨hi.1.trans hk.1, hi.2.1.trans hk.2.1, hi.2.2.1.trans hk.2.2.1,
            hi.2.2.2.1.trans hk.2.2.2.1, hi.2.2.2.2.1.trans hk.2.2.2.2.1,
            hi.2.2.2.2.2.1.trans hk.2.2.2.2.2.1, hi.2.2.2.2.2.2.1.trans hk.2.2.2.2.2.2.1,
            hi.2.2.2.2.2.2.2.1.trans hk.2.2.2.2.2.2.2.1,
            hi.2.2.2.2.2.2.2.2.1.trans hk.2.2.2.2.2.2.2.2.1,
            hi.2.2.2.2.2.2.2.2.2.1.trans hk.2.2.2.2.2.2.2.2.2.1,
            hi.2.2.2.2.2.2.2.2.2.2.1.trans hk.2.2.2.2.2.2.2.2.2.2.1,
            hi.2.2.2.2.2.2.2.2.2.2.2.1.trans hk.2.2.2.2.2.2.2.2.2.2.2.1,
            hi.2.2.2.2.2.2.2.2.2.2.2.2.1.trans hk.2.2.2.2.2.2.2.2.2.2.2.2.1,
            hi.2.2.2.2.2.2.2.2.2.2.2.2.2.1.trans hk.2.2.2.2.2.2.2.2.2.2.2.2.2.1,
            hk.2.2.2.2.2.2.2.2.2.2.2.2.2.2.trans hi.2.2.2.2.2.2.2.2.2.2.2.2.2.2⟩

/-! ## Registers and parameters -/

/-- A ring index that 16 bits hold is read as it is (R50). -/
theorem ringRegister_toNat (number : Byte) {value : Nat} (h : value < 65536) :
    (ringRegister number value).toNat = value := by
  simp only [ringRegister, if_pos h, BitVec.toNat_ofNat]
  omega

/-- What it says of the parameters that they are within R7, R8 and U14. -/
theorem params_of_ok {p : Params} (h : p.ok = true) :
    2 ≤ p.rbCap ∧ 1 ≤ p.maxPayload ∧ p.maxPayload ≤ 65535 ∧ 1 ≤ p.syncCount ∧ p.seqFirst ≠ p.seqNext ∧
      p.ackCmd ≠ p.pwronDoneCmd := by
  simp only [Params.ok, Bool.and_eq_true, decide_eq_true_eq] at h
  obtain ⟨⟨⟨⟨⟨h1, h2⟩, h3⟩, h4⟩, h5⟩, h6⟩ := h
  refine ⟨?_, h2, h3, h4, h5, h6⟩
  calc 2 = 2 ^ 1 := rfl
    _ ≤ p.rbCap := Nat.pow_le_pow_right (by decide) h1

/-! ## The encoder -/

/-- What sending a frame from a buffer can do to the state: the stream, the preamble flag, the counter
and that buffer. -/
theorem encodeAndSend_frame (cmd : Byte) (buf : Space) (n : Nat) (s : State) :
    ∃ out q m, encodeAndSend cmd buf n s =
      { s.setMem buf m with txStream := s.txStream ++ out, synchronized := true, lnkSeq := q } := by
  by_cases hs : s.synchronized = true
  · by_cases hc : cmd = s.cfg.ackCmd
    · refine ⟨emission s.cfg cmd (memBytes buf n s), s.lnkSeq, s.mem buf, ?_⟩
      cases buf <;> simp [encodeAndSend, sendPreamble, injectSequence, emitFrame, txEmit, hs, hc,
        State.setMem, State.mem]
    · refine ⟨emission s.cfg cmd (memBytes buf n (injectSequence cmd buf n s)), s.lnkSeq + 1,
        (s.mem buf).write (n - 1) (sequenceMarker s.cfg s.lnkSeq), ?_⟩
      cases buf <;> simp [encodeAndSend, sendPreamble, injectSequence, emitFrame, txEmit, hs, hc,
        State.setMem, State.mem, memWrite]
  · by_cases hc : cmd = s.cfg.ackCmd
    · refine ⟨List.replicate s.cfg.syncCount s.cfg.syncByte ++
        emission s.cfg cmd (memBytes buf n (sendPreamble s)), s.lnkSeq, s.mem buf, ?_⟩
      cases buf <;> simp [encodeAndSend, sendPreamble, injectSequence, emitFrame, txEmit, hs, hc,
        State.setMem, State.mem]
    · refine ⟨List.replicate s.cfg.syncCount s.cfg.syncByte ++
        emission s.cfg cmd (memBytes buf n (injectSequence cmd buf n (sendPreamble s))), s.lnkSeq + 1,
        (s.mem buf).write (n - 1) (sequenceMarker s.cfg s.lnkSeq), ?_⟩
      cases buf <;> simp [encodeAndSend, sendPreamble, injectSequence, emitFrame, txEmit, hs, hc,
        State.setMem, State.mem, memWrite]

end Sys2Proof.Machine
end

