-- ==== Sys2Proof/Laws/PerInstr.lean ====
section
/-! SUPPORT. The families of lemmas stated for every instruction, one lemma per constructor. -/

namespace Sys2Proof.Laws.EncodedForm

/-- The operation code of R92; none for a wire frame. -/
def codeOf : Instr → Option Byte
  | .nop => some 0x00
  | .rbWrite _ => some 0x01
  | .rbRead => some 0x02
  | .rbClear => some 0x03
  | .decStep => some 0x04
  | .decReset => some 0x05
  | .encFrame _ => some 0x06
  | .txbWrite _ _ => some 0x07
  | .txbSetlen _ => some 0x08
  | .txbRead _ => some 0x09
  | .rxbRead _ => some 0x0A
  | .regRead _ => some 0x0B
  | .lnkInit => some 0x0C
  | .lnkPowerOn => some 0x0D
  | .lnkPowerOnTx _ => some 0x0D
  | .lnkSend _ _ => some 0x0E
  | .lnkPoll => some 0x0F
  | .tmrExpire => some 0x10
  | .wireAck _ _ _ _ => none
  | .wirePwronDone _ _ _ => none
  | .wireData _ _ _ _ => none

/-- Whatever the parameters, an operation is encoded as a word with its code in the field `op`, a frame as
bytes that begin with the frame marker. -/
def Statement (i : Instr) : Prop :=
  ∀ p : Params,
    match encode p i with
    | .word w => codeOf i = some (opField w)
    | .frame bytes => codeOf i = none ∧ bytes.head? = some p.frameMarker

theorem nop : Statement .nop := by simp [Statement, encode, codeOf]
theorem rbWrite (b : Byte) : Statement (.rbWrite b) := by simp [Statement, encode, codeOf]
theorem rbRead : Statement .rbRead := by simp [Statement, encode, codeOf]
theorem rbClear : Statement .rbClear := by simp [Statement, encode, codeOf]
theorem decStep : Statement .decStep := by simp [Statement, encode, codeOf]
theorem decReset : Statement .decReset := by simp [Statement, encode, codeOf]
theorem encFrame (cmd : Byte) : Statement (.encFrame cmd) := by simp [Statement, encode, codeOf]
theorem txbWrite (idx : Half) (b : Byte) : Statement (.txbWrite idx b) := by
  simp [Statement, encode, codeOf]
theorem txbSetlen (len : Half) : Statement (.txbSetlen len) := by simp [Statement, encode, codeOf]
theorem txbRead (idx : Half) : Statement (.txbRead idx) := by simp [Statement, encode, codeOf]
theorem rxbRead (idx : Half) : Statement (.rxbRead idx) := by simp [Statement, encode, codeOf]
theorem regRead (n : Byte) : Statement (.regRead n) := by simp [Statement, encode, codeOf]
theorem lnkInit : Statement .lnkInit := by simp [Statement, encode, codeOf]
theorem lnkPowerOn : Statement .lnkPowerOn := by simp [Statement, encode, codeOf]
theorem lnkPowerOnTx (cmd : Byte) : Statement (.lnkPowerOnTx cmd) := by
  simp [Statement, encode, codeOf]
theorem lnkSend (cmd exp : Byte) : Statement (.lnkSend cmd exp) := by simp [Statement, encode, codeOf]
theorem lnkPoll : Statement .lnkPoll := by simp [Statement, encode, codeOf]
theorem tmrExpire : Statement .tmrExpire := by simp [Statement, encode, codeOf]
theorem wireAck (dest src acked : Byte) (seq : Nibble) : Statement (.wireAck dest src acked seq) := by
  simp [Statement, encode, codeOf, frameBytes, frameBody]
theorem wirePwronDone (dest src : Byte) (payload : List Byte) :
    Statement (.wirePwronDone dest src payload) := by
  simp [Statement, encode, codeOf, frameBytes, frameBody]
theorem wireData (dest src cmd : Byte) (payload : List Byte) :
    Statement (.wireData dest src cmd payload) := by
  simp [Statement, encode, codeOf, frameBytes, frameBody]

end Sys2Proof.Laws.EncodedForm
end

