-- ==== Sys2Proof/Tests/Slice0.lean ====
section
/-! SUPPORT. The model's own tests. Expected values are those of spec/95_test_vectors.md (the vector is
named in each comment) or of the encoding tables of spec/30_encoding.md; the parameters are the
illustration values of spec/00_scope.md R7. Then the witnesses: states that meet the hypotheses of the
statements. -/

namespace Sys2Proof.Tests

open Sys2Proof.Machine

/-! ## Helpers -/

/-- The illustration parameters of R7 with `RB_CAP` = 2 to the given power. -/
def ill (bits : Nat) : Params where
  rbIndexBits := bits
  addrDest := 0x00
  addrSrc := 0x0C
  syncByte := 0x55
  syncCount := 128
  seqFirst := 0x6
  seqNext := 0x4
  timeoutDuration := 7

/-- After reset, `RB_CAP` = 32. -/
def start : State := State.resetWith (ill 5)

/-- After reset, `RB_CAP` = 4. -/
def small : State := State.resetWith (ill 2)

/-- The next state of an outcome, or the state given where there is none. -/
def after (o : Host.Outcome State Fault Refusal) (s : State) : State :=
  match o with
  | .next t => t
  | _ => s

/-- One instruction performed. -/
def did (i : Instr) (s : State) : State := after (exec i s) s

/-- The result words, oldest first. -/
def words (s : State) : List Word := s.results.map Result.word

/-- These bytes queued from slot 0 of the ring on. -/
def withRing (bs : List Byte) (s : State) : State :=
  { s with rb := (List.range bs.length).zip bs, rbRd := 0, rbWr := bs.length }

/-- The first bytes of `TXP` and `tx_len`. -/
def withTx (bs : List Byte) (s : State) : State :=
  { s with txp := (List.range bs.length).zip bs, txLen := BitVec.ofNat 16 bs.length }

/-- The preamble already sent. -/
def synced (s : State) : State := { s with synchronized := true }

/-- A verified frame in the decoder. -/
def withFrame (cmd : Byte) (payload : List Byte) (s : State) : State :=
  { s with
    decState := .ready
    rxCommand := cmd
    rxLength := BitVec.ofNat 16 payload.length
    decCursor := BitVec.ofNat 16 payload.length
    rxp := (List.range payload.length).zip payload }

/-- The frame `R04` of the vectors. -/
def r04 : List Byte := [0x1E, 0x0C, 0x00, 0x04, 0x00, 0x03, 0x01, 0x02, 0x43, 0x00, 0x5C, 0x09]

/-- The frame `ACK04` of the vectors. -/
def ack04 : List Byte := [0x1E, 0x0C, 0x00, 0x7F, 0x00, 0x02, 0x04, 0x00, 0x1A, 0x71]

/-- The frame `F4` of the vectors. -/
def f4 : List Byte := [0x1E, 0x0C, 0x00, 0xF4, 0x00, 0x02, 0x01, 0x40, 0x1F, 0xBA]

/-! ## Well-formedness: each check refuses -/

theorem test_wf_ack_capacity :
    (Instr.wireAck 0 0 4 0).wellFormed { ill 5 with maxPayload := 1 } = false := by decide
theorem test_wf_powerOnDone_empty : (Instr.wirePwronDone 0 0 []).wellFormed (ill 5) = false := by decide
theorem test_wf_powerOnDone_long :
    (Instr.wirePwronDone 0 0 (List.replicate 513 0)).wellFormed (ill 5) = false := by decide +kernel
theorem test_wf_data_empty : (Instr.wireData 0 0 4 []).wellFormed (ill 5) = false := by decide
theorem test_wf_data_long :
    (Instr.wireData 0 0 4 (List.replicate 513 0)).wellFormed (ill 5) = false := by decide +kernel
theorem test_wf_data_ack : (Instr.wireData 0 0 0x7F [4, 0]).wellFormed (ill 5) = false := by decide
theorem test_wf_data_powerOnDone : (Instr.wireData 0 0 0xF4 [1]).wellFormed (ill 5) = false := by decide

/-! ## Decoding: every constructor, from a word or a frame written out from the tables -/

theorem test_decode_nop : decodeWord 0x00000000 = .ok .nop := by decide
theorem test_decode_rbWrite : decodeWord 0x0100001E = .ok (.rbWrite 0x1E) := by decide
theorem test_decode_rbRead : decodeWord 0x02000000 = .ok .rbRead := by decide
theorem test_decode_rbClear : decodeWord 0x03000000 = .ok .rbClear := by decide
theorem test_decode_decStep : decodeWord 0x04000000 = .ok .decStep := by decide
theorem test_decode_decReset : decodeWord 0x05000000 = .ok .decReset := by decide
theorem test_decode_encFrame : decodeWord 0x06000064 = .ok (.encFrame 0x64) := by decide
theorem test_decode_txbWrite : decodeWord 0x0701FF01 = .ok (.txbWrite 511 0x01) := by decide
theorem test_decode_txbSetlen : decodeWord 0x08020100 = .ok (.txbSetlen 513) := by decide
theorem test_decode_txbRead : decodeWord 0x09000200 = .ok (.txbRead 2) := by decide
theorem test_decode_rxbRead : decodeWord 0x0A000100 = .ok (.rxbRead 1) := by decide
theorem test_decode_regRead : decodeWord 0x0B000012 = .ok (.regRead 18) := by decide
theorem test_decode_lnkInit : decodeWord 0x0C000000 = .ok .lnkInit := by decide
theorem test_decode_lnkPowerOn : decodeWord 0x0D000000 = .ok .lnkPowerOn := by decide
theorem test_decode_lnkPowerOnTx : decodeWord 0x0D0001D1 = .ok (.lnkPowerOnTx 0xD1) := by decide
theorem test_decode_lnkSend : decodeWord 0x0E000504 = .ok (.lnkSend 0x04 0x05) := by decide
theorem test_decode_lnkPoll : decodeWord 0x0F000000 = .ok .lnkPoll := by decide
theorem test_decode_tmrExpire : decodeWord 0x10000000 = .ok .tmrExpire := by decide
theorem test_decode_wireAck : decodeFrame (ill 5) ack04 = .ok (.wireAck 0x0C 0x00 0x04 0) := by decide
theorem test_decode_wirePwronDone : decodeFrame (ill 5) f4 = .ok (.wirePwronDone 0x0C 0x00 [0x01, 0x40]) := by
  decide
theorem test_decode_wireData : decodeFrame (ill 5) r04 = .ok (.wireData 0x0C 0x00 0x04 [0x01, 0x02, 0x43]) := by
  decide

/-- V-ILL1 to V-ILL7: what the decoder rejects, and why. -/
theorem test_decode_illegal :
    decodeWord 0x11000000 = .error .unknownOp ∧ decodeWord 0xFF000000 = .error .unknownOp ∧
      decodeWord 0x02000001 = .error .mustBeZero ∧ decodeWord 0x0F000100 = .error .mustBeZero ∧
      decodeWord 0x0B000100 = .error .mustBeZero ∧ decodeWord 0x0D000004 = .error .mustBeZero ∧
      decodeWord 0x0D000200 = .error .mustBeZero ∧ decodeWord 0x0D000304 = .error .mustBeZero ∧
      decodeWord 0x0E010404 = .error .mustBeZero ∧ decodeWord 0x08000001 = .error .mustBeZero := by
  decide

/-- Frames that are none of the table's: no marker, `L = 0`, bad checksums, non-zero padding (V-DEC7 (a)),
an acknowledgement of length 1. -/
theorem test_decode_no_frame :
    decodeFrame (ill 5) [0x1E, 0x0C] = .error .shortHeader ∧
      decodeFrame (ill 5) [0x1F, 0x0C, 0x00, 0x7F, 0x00, 0x02, 0x04, 0x00, 0x1A, 0x71] = .error .noMarker ∧
      decodeFrame (ill 5) [0x1E, 0x0C, 0x00, 0x04, 0x00, 0x00] = .error .lengthRange ∧
      decodeFrame (ill 5) [0x1E, 0x0C, 0x00, 0x04, 0x00, 0x01, 0xAA] = .error .totalLength ∧
      decodeFrame (ill 5) [0x1E, 0x0C, 0x00, 0x04, 0x00, 0x01, 0xAA, 0x5A, 0xB4, 0x53] = .error .padding ∧
      decodeFrame (ill 5) [0x1E, 0x0C, 0x00, 0x04, 0x00, 0x01, 0xAA, 0x00, 0xB5, 0x09] =
        .error .evenChecksum ∧
      decodeFrame (ill 5) [0x1E, 0x0C, 0x00, 0x04, 0x00, 0x01, 0xAA, 0x00, 0xB4, 0x08] =
        .error .oddChecksum ∧
      decodeFrame (ill 5) [0x1E, 0x0C, 0x00, 0x7F, 0x00, 0x01, 0x04, 0x00, 0x1A, 0x72] = .error .ackShape := by
  decide

/-- The rows as the host numbers their bits: a word as it stands, a frame with its first byte lowest. -/
theorem test_decodeTableWord :
    decodeTableWord 32 0x0E000504 = some (.lnkSend 0x04 0x05) ∧
      decodeTableWord 80 0x711A0004_02007F000C1E = some (.wireAck 0x0C 0x00 0x04 0) := by decide

/-- A word placed by the host is what the next step runs. -/
theorem test_withFetchWord :
    words (after (step (start.withFetchWord 32 0x10000000)) start) = [0x00000000] ∧
      (after (step (start.withFetchWord 32 0x0100001E)) start).rb = [(0, 0x1E)] := by decide +kernel

/-! ## One operation each -/

/-- V-ACC1. -/
theorem test_nop : words (did .nop start) = [0x00000000] := by decide
/-- V-RB1. -/
theorem test_rbWrite :
    words (did (.rbWrite 0x1E) small) = [0x00000000] ∧ (did (.rbWrite 0x1E) small).rb = [(0, 0x1E)] ∧
      (did (.rbWrite 0x1E) small).rbWr = 1 := by decide
/-- V-RB3: the fourth write. -/
theorem test_rbWrite_full :
    words (did (.rbWrite 0xA4) (withRing [0xA1, 0xA2, 0xA3] small)) = [0x01000000] ∧
      (did (.rbWrite 0xA4) (withRing [0xA1, 0xA2, 0xA3] small)).rbWr = 3 := by decide
/-- V-RB1. -/
theorem test_rbRead :
    words (did .rbRead (withRing [0x1E] small)) = [0x0000001E] ∧
      (did .rbRead (withRing [0x1E] small)).rbRd = 1 := by decide
/-- V-RB2. -/
theorem test_rbRead_empty : words (did .rbRead small) = [0x02000000] := by decide
/-- V-RB5. -/
theorem test_rbClear :
    (did .rbClear (withRing [0x11, 0x22] small)).rbWr = 0 ∧
      (did .rbClear (withRing [0x11, 0x22] small)).rb = [(0, 0x11), (1, 0x22)] := by decide
/-- V-DEC2: the last payload byte of an even length advances twice. -/
theorem test_decStep_even_length :
    words (did .decStep
        { withRing [0x44] start with
          decState := .lengthLowRead, decCount := 9, rxLength := 4, decCursor := 3 }) =
      [0x00000008] := by decide
/-- V-DEC8: length 513. -/
theorem test_decStep_too_long :
    (did .decStep
        { withRing [0x01] start with
          decState := .lengthHighRead, decCount := 5, rxLength := 0x0200 }).decErr = .length := by
  decide
/-- R134. -/
theorem test_decReset :
    (did .decReset { start with decState := .error, decErr := .checksum }).decState = .noFrame ∧
      (did .decReset { start with decState := .error, decErr := .checksum }).decErr = .none := by
  decide
/-- V-ENC2. -/
theorem test_encFrame :
    (did (.encFrame 0x64) { withTx [0x00, 0x01, 0x00, 0x00] (synced start) with lnkSeq := 1 }).txStream =
      [0x1E, 0x00, 0x0C, 0x64, 0x00, 0x04, 0x00, 0x01, 0x00, 0x41, 0x12, 0x20] := by decide
/-- V-ENC5. -/
theorem test_encFrame_empty :
    words (did (.encFrame 0x04) start) = [0x03000000] ∧ (did (.encFrame 0x04) start).txStream = [] := by
  decide
/-- V-ACC5. -/
theorem test_txbWrite : (did (.txbWrite 511 0x01) start).txp = [(511, 0x01)] := by decide
/-- V-ACC6. -/
theorem test_txbWrite_range : words (did (.txbWrite 512 0x01) start) = [0x04000000] := by decide
/-- V-ACC7. -/
theorem test_txbSetlen : (did (.txbSetlen 512) start).txLen = 512 := by decide
/-- V-ACC7. -/
theorem test_txbSetlen_range : words (did (.txbSetlen 513) start) = [0x03000000] := by decide
/-- V-ACC4. -/
theorem test_txbRead : words (did (.txbRead 0) (withTx [0xAA] start)) = [0x000000AA] := by decide
/-- P1: the byte of the response that is the device's own sequence marker. -/
theorem test_rxbRead :
    words (did (.rxbRead 2) (withFrame 0x04 [0x01, 0x02, 0x43] start)) = [0x00000043] := by decide
/-- V-ACC8. -/
theorem test_rxbRead_range : words (did (.rxbRead 512) start) = [0x04000000] := by decide
/-- V-ACC11. -/
theorem test_regRead_flags :
    words (did (.regRead 15) { synced start with tmrArmed := true, tmrFired := true }) =
      [0x00000007] := by decide
/-- V-ACC3. -/
theorem test_regRead_reserved : words (did (.regRead 18) start) = [0x04000000] := by decide
/-- V-LNK4. -/
theorem test_lnkInit :
    (did .lnkInit { start with lnkState := .error, lnkErr := .timeout, lnkSeq := 5 }).lnkErr = .none ∧
      (did .lnkInit { start with lnkState := .error, lnkErr := .timeout, lnkSeq := 5 }).lnkSeq = 0 ∧
      (did .lnkInit { start with lnkState := .error, lnkErr := .timeout, lnkSeq := 5 }).tmrLog =
        [.stop] := by decide
/-- V-LNK1. -/
theorem test_lnkPowerOn :
    words (did .lnkPowerOn start) = [0x00000001] ∧ (did .lnkPowerOn start).tmrLog = [.start 7] := by
  decide
/-- V-LNK13, without the preamble. -/
theorem test_lnkPowerOnTx :
    (did (.lnkPowerOnTx 0xD1) (withTx [0x00, 0x01, 0x00] (synced start))).txStream =
      [0x1E, 0x00, 0x0C, 0xD1, 0x00, 0x03, 0x00, 0x01, 0x60, 0x00, 0x72, 0xD3] := by decide
/-- P4: the second command. -/
theorem test_lnkSend :
    words (did (.lnkSend 0x64 0x64) { withTx [0x00, 0x01, 0x00, 0x00] (synced start) with lnkSeq := 1 }) =
      [0x00000003] := by decide
/-- V-LNK11. -/
theorem test_lnkSend_empty :
    words (did (.lnkSend 0x04 0x04) start) = [0x03000000] ∧ (did (.lnkSend 0x04 0x04) start).tmrLog = [] := by
  decide
/-- V-LNK12: the response; the acknowledgement goes out. -/
theorem test_lnkPoll_response :
    (did .lnkPoll { withRing r04 (synced start) with
        lnkState := .waitingForResponse, lnkExpected := 0x04, tmrArmed := true }).txStream =
      [0x1E, 0x00, 0x0C, 0x7F, 0x00, 0x02, 0x04, 0x03, 0x16, 0x7E] := by decide +kernel
/-- V-LNK2 with the last bytes and an expiry falling between micro-steps of the poll: the frame completes
the power-on, the expiry comes too late for this poll's timeout check. -/
theorem test_lnkPoll_events_inside :
    words (did .lnkPoll { withRing [0x1E, 0x0C, 0x00, 0xF4, 0x00, 0x02] start with
        lnkState := .waitingForPowerOn, tmrArmed := true
        requests := [.frame [0x01, 0x40] (some 2), .word .timer 0x10000000 (some 1),
          .frame [0x1F, 0xBA] (some 0)] }) =
      [0, 0, 0x00000000, 0, 0, 0x00000002] := by decide +kernel
/-- V-LNK7. -/
theorem test_tmrExpire_unarmed : (did .tmrExpire start).tmrFired = false := by decide
/-- P2. -/
theorem test_tmrExpire : (did .tmrExpire { start with tmrArmed := true }).tmrFired = true := by decide
/-- `ACK04` arrives. -/
theorem test_wireAck : queued (did (.wireAck 0x0C 0x00 0x04 0) start) = ack04 := by decide +kernel
/-- `F4` arrives. -/
theorem test_wirePwronDone : queued (did (.wirePwronDone 0x0C 0x00 [0x01, 0x40]) start) = f4 := by
  decide +kernel
/-- `R04` arrives at a ring of four slots: three bytes are kept. -/
theorem test_wireData :
    queued (did (.wireData 0x0C 0x00 0x04 [0x01, 0x02, 0x43]) small) = [0x1E, 0x0C, 0x00] := by
  decide +kernel

/-! ## Witnesses: the hypotheses of each statement are met, for each of its clauses -/

/-- A state in which the invariants hold: the reset state with the illustration parameters. -/
theorem witness_Inv : Inv start := by constructor <;> decide

/-- A session that waits for the response, the response half received: the invariants hold here too. -/
def midFrame : State :=
  { withRing [0x02, 0x43] (synced start) with
    decState := .lengthLowRead
    decCount := 7
    decCkEven := 0x1F
    decCkOdd := 0x0B
    decCursor := 1
    rxCommand := 0x04
    rxLength := 3
    rxp := [(0, 0x01)]
    lnkState := .waitingForResponse
    lnkExpected := 0x04
    tmrArmed := true
    requests := [.word .host 0x0F000000 none] }

theorem witness_Inv_midFrame : Inv midFrame := by constructor <;> decide

theorem witness_Written_midFrame : Written midFrame := by constructor <;> decide

theorem witness_DecodeOfEncodeIsIdentity :
    (ill 5).ok = true ∧ (Instr.wireAck 0 0 4 0).wellFormed (ill 5) = true ∧
      (Instr.lnkSend 0x04 0x05).wellFormed (ill 5) = true ∧
      (Instr.wirePwronDone 0 0 [1]).wellFormed (ill 5) = true ∧
      (Instr.wireData 0 0 4 (List.replicate 512 0)).wellFormed (ill 5) = true := by decide +kernel

theorem witness_EncodeOfDecodeIsIdentity :
    decode (ill 5) (.word 0x0D0001D1) = .ok (.lnkPowerOnTx 0xD1) ∧
      decode (ill 5) (.frame r04) = .ok (.wireData 0x0C 0x00 0x04 [0x01, 0x02, 0x43]) := by decide

theorem witness_WordIllegalIffNoRowSelected :
    decodeWord 0x11000000 = .error .unknownOp ∧
      ∀ row ∈ opcodeRows, selects 0x11000000 row = false := by
  have h : (opcodeRows.all fun r => selects 0x11000000 r == false) = true := by decide
  exact ⟨by decide, fun row hr => by simpa using List.all_eq_true.mp h row hr⟩

theorem witness_OpcodeRowsDoNotOverlap :
    selects 0x0D000101 (opcodeRows.get (14 : Fin 18)) = true := by decide

theorem witness_StepRunsTheDecodedInstruction :
    decode (ill 5) (.word 0x0F000000) = .ok .lnkPoll ∧
      midFrame.requests = .word Instr.lnkPoll.port 0x0F000000 none :: [] ∧
      decode (ill 5) (.frame f4) = .ok (.wirePwronDone 0x0C 0x00 [0x01, 0x40]) ∧
      ({ start with requests := [.frame f4 none] } : State).requests = .frame f4 none :: [] := by
  decide

/-- V-ILL1 and V-RB8: an unknown operation, and `RB_WRITE` on the host's port. -/
theorem witness_IllegalWordChangesNothing :
    (∀ i, decodeWord 0xFF000000 = .ok i → i.port ≠ .host) ∧
      ∀ i, decodeWord 0x01000041 = .ok i → i.port ≠ .host := by
  constructor <;> intro i h
  · rw [show decodeWord 0xFF000000 = .error .unknownOp by decide] at h
    cases h
  · rw [show decodeWord 0x01000041 = .ok (.rbWrite 0x41) by decide] at h
    cases h
    decide

theorem witness_ResetInputResetsEverything :
    ({ midFrame with requests := [.reset] } : State).requests = .reset :: [] := by decide

theorem witness_StepKeepsInv : Inv midFrame ∧ Written midFrame ∧ ∃ t, step midFrame = .next t :=
  ⟨witness_Inv_midFrame, witness_Written_midFrame, _, rfl⟩

/-- The clause of `NoStepStops` about a block without input. -/
theorem witness_NoStepStops : start.requests = [] := by decide

theorem witness_ResponseStaysHeld :
    Instr.lnkPoll ≠ .decReset ∧
      ResponseHeld { withFrame 0x04 [1] start with lnkState := .responseReady, lnkExpected := 0x04 } ∧
      ∃ t, exec .lnkPoll
        { withFrame 0x04 [1] start with lnkState := .responseReady, lnkExpected := 0x04 } = .next t :=
  ⟨by decide, by decide, _, rfl⟩

theorem witness_CauseMeansErrorWithinContract :
    inContract (.lnkSend 4 4) { start with lnkState := .ready } ∧
      CauseMeansError { start with lnkState := .ready } ∧
      ∃ t, exec (.lnkSend 4 4) { start with lnkState := .ready } = .next t :=
  ⟨.inl rfl, by decide, _, rfl⟩

theorem witness_ErrorIsTerminalUntilReinitialised :
    Instr.lnkPoll ≠ .lnkInit ∧ inContract .lnkPoll { start with lnkState := .error } ∧
      ({ start with lnkState := .error } : State).lnkState = .error ∧
      ∃ t, exec .lnkPoll { start with lnkState := .error } = .next t :=
  ⟨by decide, trivial, rfl, _, rfl⟩

/-- `F4` completes the power-on. -/
theorem witness_ReadyOnlyByPowerOnCompletion :
    (∃ t, exec .lnkPoll { withFrame 0xF4 [1, 0x40] start with lnkState := .waitingForPowerOn } =
        .next t ∧ t.lnkState = .ready) ∧
      ({ withFrame 0xF4 [1, 0x40] start with lnkState := .waitingForPowerOn } : State).lnkState ≠
        .ready :=
  ⟨⟨_, rfl, by decide +kernel⟩, by decide⟩

theorem witness_PreambleFlagIsNeverCleared :
    midFrame.requests = .word .host 0x0F000000 none :: [] ∧
      Request.word .host 0x0F000000 none ≠ .reset ∧ midFrame.synchronized = true ∧
      ∃ t, step midFrame = .next t :=
  ⟨by decide, by decide, by decide, _, rfl⟩

theorem witness_OutputsOnlyGrow :
    midFrame.requests = .word .host 0x0F000000 none :: [] ∧
      Request.word .host 0x0F000000 none ≠ .reset ∧ ∃ t, step midFrame = .next t :=
  ⟨by decide, by decide, _, rfl⟩

theorem witness_OtherContextsAreConfined :
    ringOk start ∧ (∃ t, step { start with requests := [.word .producer 0x01000041 none] } = .next t) ∧
      (∃ t, step { start with requests := [.frame f4 none] } = .next t) ∧
      ∃ t, step { start with tmrFired := true, requests := [.word .timer 0x10000000 none] } = .next t :=
  ⟨by decide, ⟨_, rfl⟩, ⟨_, rfl⟩, _, rfl⟩

/-- Slots 0 and 1 for each of the three inputs, no timeout pending, and no input at all. -/
theorem witness_EventInsidePollActsAsBetweenOperations :
    start.tmrFired = false ∧ undisturbed start = true ∧
      ∀ slot ∈ [some 0, some (0 + 1)],
        ({ start with requests := [.word .producer 0x01000041 slot] } : State).requests =
            .word .producer 0x01000041 slot :: [] ∧
          ({ start with requests := [.word .timer 0x10000000 slot] } : State).requests =
            .word .timer 0x10000000 slot :: [] ∧
          ({ start with requests := [.frame f4 slot] } : State).requests = .frame f4 slot :: [] := by
  decide

/-- A full ring and an empty one: each clause of `RbWriteQueuesOrReportsFull`. -/
theorem witness_RbWriteQueuesOrReportsFull :
    ((withRing [1, 2, 3] small).rbWr + 1) % small.cfg.rbCap = (withRing [1, 2, 3] small).rbRd ∧
      (small.rbWr + 1) % small.cfg.rbCap ≠ small.rbRd := by decide

theorem witness_RbReadDequeuesOrReportsEmpty :
    small.rbRd = small.rbWr ∧ (withRing [1] small).rbRd ≠ (withRing [1] small).rbWr := by decide

/-- A ring with one byte, an empty one and a full one. -/
theorem witness_RingRefinesBoundedQueue :
    ringOk (withRing [1] small) ∧ queued (withRing [1] small) = [1] ∧ ringOk small ∧
      queued small = [] ∧ ringOk (withRing [1, 2, 3] small) ∧
      (queued (withRing [1, 2, 3] small)).length = small.cfg.rbCap - 1 := by decide +kernel

theorem witness_ArrivingFramesAreQueued :
    ringOk small ∧
      ((Instr.wirePwronDone 1 2 [3] = .wireAck 1 2 0 0 ∧
          frameBytes (ill 2) 1 2 0xF4 [3] = frameBytes (ill 2) 1 2 0x7F [0, 0] ∨
        Instr.wirePwronDone 1 2 [3] = .wirePwronDone 1 2 [3] ∧
          frameBytes (ill 2) 1 2 0xF4 [3] = frameBytes (ill 2) 1 2 0xF4 [3] ∨
        Instr.wirePwronDone 1 2 [3] = .wireData 1 2 0 [3] ∧
          frameBytes (ill 2) 1 2 0xF4 [3] = frameBytes (ill 2) 1 2 0 [3])) := by decide

theorem witness_DecStepWithoutByte :
    (withFrame 0x04 [1] start).decState = .ready ∧
      ({ start with decState := .error } : State).decState = .error ∧
      start.decState ≠ .ready ∧ start.decState ≠ .error ∧ start.rbRd = start.rbWr := by decide

/-- The marker and a stray byte. -/
theorem witness_DecStepLooksForTheMarker :
    (withRing [0x1E] start).rbRd ≠ (withRing [0x1E] start).rbWr ∧
      (withRing [0x1E] start).decState = .noFrame ∧
      memRead .rb (withRing [0x1E] start).rbRd (withRing [0x1E] start) = start.cfg.frameMarker ∧
      memRead .rb (withRing [0x55] start).rbRd (withRing [0x55] start) ≠ start.cfg.frameMarker := by decide

theorem witness_DecStepReadsHeaderAndPadding :
    (withRing [0x0C] start).rbRd ≠ (withRing [0x0C] start).rbWr ∧
      ∀ st ∈ [DecState.frameMarkerRead, .destinationRead, .sourceRead, .commandRead, .payloadRead],
        ({ withRing [0x0C] start with decState := st } : State).decState = st := by decide

/-- Lengths 1, 512, 0 and 513: the boundaries of the two clauses. -/
theorem witness_DecStepTestsTheLength :
    (withRing [0x01] start).rbRd ≠ (withRing [0x01] start).rbWr ∧
      ({ withRing [0x01] start with decState := .lengthHighRead } : State).decState =
        .lengthHighRead ∧
      (did .decStep { withRing [0x01] start with decState := .lengthHighRead }).rxLength = 1 ∧
      (did .decStep
        { withRing [0x00] start with decState := .lengthHighRead, rxLength := 0x0200 }).rxLength =
          512 ∧
      (did .decStep { withRing [0x00] start with decState := .lengthHighRead }).rxLength = 0 ∧
      (did .decStep
        { withRing [0x01] start with decState := .lengthHighRead, rxLength := 0x0200 }).rxLength =
          513 := by decide

/-- A byte before the last, the last of an even length, the last of an odd length. -/
theorem witness_DecStepStoresPayload :
    midFrame.rbRd ≠ midFrame.rbWr ∧ midFrame.decState = .lengthLowRead ∧
      midFrame.decCursor + 1 ≠ midFrame.rxLength ∧
      ({ midFrame with rxLength := 2 } : State).decCursor + 1 = 2 ∧
      ({ midFrame with rxLength := 2 } : State).rxLength.toNat % 2 = 0 ∧
      ({ midFrame with decCursor := 2 } : State).decCursor + 1 = midFrame.rxLength ∧
      midFrame.rxLength.toNat % 2 = 1 := by decide

/-- A matching and a differing byte in each of the two states. -/
theorem witness_DecStepComparesChecksums :
    (withRing [0x5C] start).rbRd ≠ (withRing [0x5C] start).rbWr ∧
      ∀ st ∈ [DecState.paddingRead, .evenChecksumRead],
        ({ withRing [0x5C] start with decState := st } : State).decState = st ∧
          memRead .rb 0 (withRing [0x5C] start) =
            ({ start with decCkEven := 0x5C, decCkOdd := 0x5C } : State).decCkEven ∧
          memRead .rb 0 (withRing [0x5C] start) =
            ({ start with decCkEven := 0x5C, decCkOdd := 0x5C } : State).decCkOdd ∧
          memRead .rb 0 (withRing [0x5C] start) ≠ start.decCkEven ∧
          memRead .rb 0 (withRing [0x5C] start) ≠ start.decCkOdd := by decide

theorem witness_DecoderReadsBackEmission :
    start.cfg.ok = true ∧ decoderCleared start ∧ 1 ≤ [(0x60 : Byte)].length ∧ [(0x60 : Byte)].length ≤ start.cfg.maxPayload ∧
      1 ≤ (List.replicate 512 (0 : Byte)).length ∧
      (List.replicate 512 (0 : Byte)).length ≤ start.cfg.maxPayload := by decide +kernel

/-- A wrong destination, command, first payload byte and odd checksum byte of `R04`. -/
theorem witness_OneWrongByteIsDetected :
    start.cfg.ok = true ∧ decoderCleared start ∧ frameBytes (ill 5) 0x0C 0x00 0x04 [0x01, 0x02, 0x43] = r04 ∧
      ∀ k ∈ [1, 3, 6, 11], (k = 1 ∨ k = 2 ∨ k = 3 ∨ 6 ≤ k) ∧ k < r04.length ∧
        r04[k]? ≠ some (0xEE : Byte) := by decide

theorem witness_DecoderIgnoresChunking :
    ringOk small ∧ queued (runRx [.write 0x55, .step, .write 0x1E, .write 0x0C, .step] small) = [0x0C] ∧
      accepted [.write 0x55, .step, .write 0x1E, .write 0x0C, .step] small = [0x55, 0x1E, 0x0C] := by
  decide +kernel

/-- Refused: 513 bytes, and none with a command other than 0x7F. Sent: 512 bytes, and none with 0x7F. The
same clauses stand in `LnkPowerOnBeginsTheWait` and `LnkSendSendsOrRefuses`. -/
theorem witness_EncFrameSendsOrRefuses :
    start.cfg.maxPayload < ({ start with txLen := 513 } : State).txLen.toNat ∧
      ((0x04 : Byte) ≠ start.cfg.ackCmd ∧ start.txLen = 0) ∧
      ({ start with txLen := 512 } : State).txLen.toNat ≤ start.cfg.maxPayload ∧
      ({ start with txLen := 512 } : State).txLen ≠ 0 ∧
      start.txLen.toNat ≤ start.cfg.maxPayload ∧ (0x7F : Byte) = start.cfg.ackCmd := by decide

theorem witness_LnkPowerOnBeginsTheWait :
    start.cfg.maxPayload < ({ start with txLen := 513 } : State).txLen.toNat ∧
      (withTx [0] start).txLen.toNat ≤ start.cfg.maxPayload ∧ (withTx [0] start).txLen ≠ 0 := by decide

theorem witness_LnkSendSendsOrRefuses :
    ((0x04 : Byte) ≠ start.cfg.ackCmd ∧ start.txLen = 0) ∧
      (withTx [0] start).txLen.toNat ≤ start.cfg.maxPayload ∧ (withTx [0] start).txLen ≠ 0 := by decide

/-- Numbers 17 and 18, and the largest ring index whose value is stated, in a ring of 131072 slots. -/
theorem witness_RegReadAnswersTheRegister :
    17 < (18 : Byte).toNat ∧ (17 : Byte).toNat ≤ 17 ∧ (queued start).length < 65536 ∧
      (({ State.resetWith (ill 17) with rbRd := 65535, rbWr := 65535 } : State).rbRd < 65536 ∧
        ({ State.resetWith (ill 17) with rbRd := 65535, rbWr := 65535 } : State).rbWr < 65536) := by
  decide +kernel

theorem witness_TxbWriteStoresOneByte : start.cfg.maxPayload ≤ (512 : Half).toNat ∧ (511 : Half).toNat < start.cfg.maxPayload := by decide

theorem witness_TxbSetlenSetsTheLength : start.cfg.maxPayload < (513 : Half).toNat ∧ (512 : Half).toNat ≤ start.cfg.maxPayload := by decide

theorem witness_TxbReadReturnsTheByteWritten :
    start.cfg.maxPayload ≤ (512 : Half).toNat ∧ (511 : Half).toNat < start.cfg.maxPayload := by decide

theorem witness_RxbReadReturnsReceivedBytes :
    start.cfg.maxPayload ≤ (512 : Half).toNat ∧ (2 : Half).toNat < start.cfg.maxPayload ∧
      6 ≤ (withFrame 0x04 [1, 2, 0x43] start).decState.code.toNat ∧
      (withFrame 0x04 [1, 2, 0x43] start).decState.code.toNat ≤ 10 ∧
      (2 : Half).toNat < (withFrame 0x04 [1, 2, 0x43] start).decCursor.toNat := by decide

theorem witness_PollTakesThePendingTimeout :
    ({ start with lnkState := .waitingForResponse, tmrFired := true } : State).tmrFired = true ∧
      LnkState.waitingForResponse ≠ .ready ∧ LnkState.waitingForResponse ≠ .responseReady ∧
      LnkState.waitingForResponse ≠ .off := by decide

theorem witness_PollConsumesAnIgnoredExpiry :
    ∀ st ∈ [LnkState.ready, .responseReady, .off],
      undisturbed { start with lnkState := st, tmrFired := true } = true ∧
        ({ start with lnkState := st, tmrFired := true } : State).tmrFired = true ∧
        ({ start with lnkState := st, tmrFired := true } : State).decState.terminal = false ∧
        ({ start with lnkState := st, tmrFired := true } : State).rbRd =
          ({ start with lnkState := st, tmrFired := true } : State).rbWr := by decide

theorem witness_PollWithoutInput :
    undisturbed start = true ∧ start.tmrFired = false ∧ start.decState.terminal = false ∧
      start.rbRd = start.rbWr := by decide

/-- The padding of `R04`, a wrong even checksum byte and the odd one in the ring, the bytes before them
taken earlier. -/
def badRest : State :=
  { withRing [0x00, 0x5D, 0x09] (synced start) with
    decState := .payloadRead
    decCount := 9
    decCkEven := 0x5C
    decCkOdd := 0x09
    decCursor := 3
    rxCommand := 0x04
    rxLength := 3
    rxp := [(0, 0x01), (1, 0x02), (2, 0x43)] }

/-- A failed frame in the decoder; and in the ring the rest of a frame whose even checksum byte is wrong,
its odd one queued behind it. -/
theorem witness_PollOfBadFrameEntersError :
    (undisturbed { start with decState := .error, decErr := .length } = true ∧
      ({ start with decState := .error, decErr := .length } : State).tmrFired = false ∧
      ({ start with decState := .error, decErr := .length } : State).decState = .error) ∧
    ringOk badRest ∧ undisturbed badRest = true ∧ badRest.tmrFired = false ∧
      queued badRest = [0x00, 0x5D] ++ [0x09] ∧ (decFeed [0x00, 0x5D] badRest).decState = .error ∧
      ∀ k, k < [(0x00 : Byte), 0x5D].length →
        (decFeed ([(0x00 : Byte), 0x5D].take k) badRest).decState.terminal = false := by decide +kernel

/-- The 0xF4 frame and another one. -/
theorem witness_PollInWaitingForPowerOn :
    ∀ s ∈ [{ withFrame 0xF4 [1, 0x40] start with lnkState := .waitingForPowerOn },
        { withFrame 0xD0 [1, 0x41] start with lnkState := .waitingForPowerOn }],
      undisturbed s = true ∧ s.tmrFired = false ∧ s.decState = .ready ∧
        s.lnkState = .waitingForPowerOn := by decide

/-- The matching acknowledgement, another one, and an unsolicited frame. -/
theorem witness_PollInWaitingForAcknowledge :
    (∀ s ∈ [{ withFrame 0x7F [4, 0] start with lnkState := .waitingForAcknowledge, lnkPending := 4 },
        { withFrame 0x7F [8, 0] start with lnkState := .waitingForAcknowledge, lnkPending := 4 },
        { withFrame 0xD0 [1, 0x41] start with lnkState := .waitingForAcknowledge, lnkPending := 4 }],
      undisturbed s = true ∧ s.tmrFired = false ∧ s.decState = .ready ∧
        s.lnkState = .waitingForAcknowledge) ∧
      memRead .rxp 0 (withFrame 0x7F [4, 0] start) = 4 ∧
      memRead .rxp 0 (withFrame 0x7F [8, 0] start) ≠ 4 ∧ (0xD0 : Byte) ≠ start.cfg.ackCmd := by decide

/-- The awaited response and another frame. -/
theorem witness_PollInWaitingForResponse :
    ∀ s ∈ [{ withFrame 0x04 [1, 2, 0x43] start with lnkState := .waitingForResponse, lnkExpected := 4 },
        { withFrame 0xD0 [1, 0x41] start with lnkState := .waitingForResponse, lnkExpected := 4 }],
      undisturbed s = true ∧ s.tmrFired = false ∧ s.decState = .ready ∧
        s.lnkState = .waitingForResponse := by decide

theorem witness_PollKeepsTheFrameElsewhere :
    ∀ st ∈ [LnkState.off, .ready, .error, .responseReady],
      undisturbed { withFrame 0x04 [1] start with lnkState := st } = true ∧
        ({ withFrame 0x04 [1] start with lnkState := st } : State).tmrFired = false ∧
        ({ withFrame 0x04 [1] start with lnkState := st } : State).decState = .ready := by decide

/-- A payload byte that does not end the pull loop. -/
theorem witness_PullLoopBoundNeverEndsIt :
    ringOk midFrame ∧ (decStepOp midFrame).2 = some .lengthLowRead := by decide

/-- Clause (1): a byte that arrives in the first gap is stray and does not end the loop. -/
theorem witness_PollPullsQueuedBytes_gap :
    ringOk { start with requests := [.frame [0x55] (some 0)] } ∧
      ({ start with requests := [.frame [0x55] (some 0)] } : State).tmrFired = false ∧
      (gap { start with requests := [.frame [0x55] (some 0)] }).tmrFired = false ∧
      (decStepOp (gap { start with requests := [.frame [0x55] (some 0)] })).2 = some .noFrame := by
  decide +kernel

/-- Clause (2): the rest of a frame begun earlier, still incomplete. -/
theorem witness_PollPullsQueuedBytes_taken :
    ringOk midFrame ∧ undisturbed midFrame = true ∧ midFrame.tmrFired = false ∧
      queued midFrame = [0x02, 0x43] ++ [] ∧
      ∀ k, k < [(0x02 : Byte), 0x43].length →
        (decFeed ([(0x02 : Byte), 0x43].take k) midFrame).decState.terminal = false := by decide +kernel

/-- Clause (3): two stray bytes, `F4`, and the first byte of the next frame. -/
theorem witness_PollPullsQueuedBytes_frame :
    ringOk (withRing ([0x00, 0x55] ++ f4 ++ [0x1E]) start) ∧
      undisturbed (withRing ([0x00, 0x55] ++ f4 ++ [0x1E]) start) = true ∧
      (withRing ([0x00, 0x55] ++ f4 ++ [0x1E]) start).tmrFired = false ∧
      decoderCleared (withRing ([0x00, 0x55] ++ f4 ++ [0x1E]) start) ∧
      start.cfg.frameMarker ∉ [(0x00 : Byte), 0x55] ∧ 1 ≤ [(0x01 : Byte), 0x40].length ∧
      [(0x01 : Byte), 0x40].length ≤ start.cfg.maxPayload ∧
      queued (withRing ([0x00, 0x55] ++ f4 ++ [0x1E]) start) =
        [0x00, 0x55] ++ frameBytes (ill 5) 0x0C 0x00 0xF4 [0x01, 0x40] ++ [0x1E] := by decide +kernel

end Sys2Proof.Tests
end

section
/-! The ring buffer operations (spec/40_ring_buffer.md). First what each of them makes of the state, then the
statements that are settled with it. -/

namespace Sys2Proof.Machine

/-! ## The conditions of the ring -/

theorem ringFull_iff (s : State) : ringFull s = true ↔ (s.rbWr + 1) % s.cfg.rbCap = s.rbRd := by
  simp [ringFull, nextIndex]

theorem ringEmpty_iff (s : State) : ringEmpty s = true ↔ s.rbRd = s.rbWr := by
  simp [ringEmpty]

/-! ## What an operation of the ring leaves alone -/

/-- Everything but the ring, its storage and the results is as before. -/
abbrev sameBesidesRing (s t : State) : Prop :=
  sameDecoder s t ∧ sameSession s t ∧ sameTimer s t ∧ sameTransmit s t ∧ sameInputs s t

theorem sameBesidesRing_update (s : State) (m : Memory) (rd wr : Nat) (rs : List Result) :
    sameBesidesRing s { s with rb := m, rbRd := rd, rbWr := wr, results := rs } := by
  simp [sameBesidesRing, sameDecoder, sameSession, sameTimer, sameTransmit, sameInputs]

theorem onlyAnswered_answer (p : Port) (st : Status) (v : Half) (s : State) :
    onlyAnswered p st v s (answer p st v s) := by
  simp [onlyAnswered, answered, sameRing, sameDecoder, sameSession, sameTimer, sameTransmit, sameMemory,
    sameInputs]

/-! ## What is read after an operation of the ring -/

theorem memRead_ringPush (b : Byte) (sp : Space) (i : Nat) (s : State) :
    memRead sp i (ringPush b s) = if sp = .rb ∧ i = s.rbWr then b else memRead sp i s :=
  calc memRead sp i (ringPush b s)
      = memRead sp i (memWrite .rb s.rbWr b s) := by
        apply memRead_congr
        · cases sp <;> rfl
        · rfl
    _ = _ := memRead_memWrite .rb sp s.rbWr i b s

/-- The indices say nothing about the bytes stored. -/
theorem memRead_ringIndices (sp : Space) (i rd wr : Nat) (s : State) :
    memRead sp i { s with rbRd := rd, rbWr := wr } = memRead sp i s := by
  apply memRead_congr
  · cases sp <;> rfl
  · rfl

/-! ## RB_WRITE -/

theorem decodeWord_rbWrite (b : Byte) : decodeWord (packWord 0x01 0 b) = .ok (.rbWrite b) := by
  simp [decodeWord, ifZero]

theorem exec_rbWrite (b : Byte) (s : State) : exec (.rbWrite b) s = .next (rbWriteOp b s) := rfl

theorem rbWriteOp_of_full (b : Byte) {s : State} (h : ringFull s = true) :
    rbWriteOp b s = answer .producer .full 0 s :=
  if_pos h

theorem rbWriteOp_of_not_full (b : Byte) {s : State} (h : ¬ringFull s = true) :
    rbWriteOp b s = answer .producer .ok 0 (ringPush b s) :=
  if_neg h

/-- Settles O25: the two clauses are the two branches of `rbWriteOp`. -/
theorem rbWriteQueuesOrReportsFull : Obligations.RbWriteQueuesOrReportsFull := by
  refine ⟨fun b => ⟨decodeWord_rbWrite b, rfl⟩, fun b s => ⟨_, exec_rbWrite b s, ?full, ?room⟩⟩
  case full =>
    intro h
    rw [rbWriteOp_of_full b ((ringFull_iff s).2 h)]
    exact onlyAnswered_answer .producer .full 0 s
  case room =>
    intro h
    rw [rbWriteOp_of_not_full b (mt (ringFull_iff s).1 h)]
    have stored : memRead .rb s.rbWr (answer .producer .ok 0 (ringPush b s)) = b := by
      simp [memRead_ringPush]
    have others : sameMemoryBut .rb s.rbWr s (answer .producer .ok 0 (ringPush b s)) := by
      intro sp i hother
      rw [memRead_answer, memRead_ringPush, if_neg hother]
    exact ⟨rfl, rfl, rfl, stored, others, sameBesidesRing_update s _ _ _ _⟩

/-! ## RB_READ -/

theorem exec_rbRead_of_empty {s : State} (h : ringEmpty s = true) :
    exec .rbRead s = .next (answer .host .empty 0 s) :=
  congrArg Host.Outcome.next (if_pos h)

theorem exec_rbRead_of_not_empty {s : State} (h : ¬ringEmpty s = true) :
    exec .rbRead s = .next (answer .host .ok ((ringFront s).setWidth 16) (ringPop s)) :=
  congrArg Host.Outcome.next (if_neg h)

/-- Settles O26, by whether the ring is empty. -/
theorem rbReadDequeuesOrReportsEmpty : Obligations.RbReadDequeuesOrReportsEmpty := by
  refine ⟨⟨by decide, rfl⟩, fun s => ?_⟩
  by_cases h : s.rbRd = s.rbWr
  case pos =>
    exact ⟨_, exec_rbRead_of_empty ((ringEmpty_iff s).2 h),
      fun _ => onlyAnswered_answer .host .empty 0 s, fun hne => absurd h hne⟩
  case neg =>
    have memory : sameMemory s (answer .host .ok ((ringFront s).setWidth 16) (ringPop s)) := by
      intro sp i
      rw [memRead_answer, memRead_ringPop]
    exact ⟨_, exec_rbRead_of_not_empty (mt (ringEmpty_iff s).1 h), fun heq => absurd heq h,
      fun _ => ⟨rfl, rfl, rfl, memory, sameBesidesRing_update s _ _ _ _⟩⟩

/-! ## RB_CLEAR -/

theorem exec_rbClear (s : State) :
    exec .rbClear s = .next (answer .host .ok 0 { s with rbRd := 0, rbWr := 0 }) := rfl

/-- Settles O27: `RB_CLEAR` has no condition, so its one equation `exec_rbClear` gives every part. -/
theorem rbClearEmptiesTheRing : Obligations.RbClearEmptiesTheRing := by
  refine ⟨⟨by decide, rfl⟩, fun s => ?_⟩
  have memory : sameMemory s (answer .host .ok 0 { s with rbRd := 0, rbWr := 0 }) := by
    intro sp i
    rw [memRead_answer, memRead_ringIndices]
  exact ⟨_, exec_rbClear s, rfl, rfl, rfl, memory, sameBesidesRing_update s _ _ _ _⟩

end Sys2Proof.Machine
end

section
/-! The decoder operations (spec/41_decoder.md). First what the accumulate step and one consumed byte make of
the decoder's registers, then what `DEC_STEP` makes of the state around them, then the statements that are
settled with it. -/

namespace Sys2Proof.Machine

/-! ## The accumulate step -/

/-- The whole of the accumulate step (R122). -/
theorem accumulate_eq (b : Byte) (s : State) :
    accumulate b s =
      { s with
        decCount := s.decCount + 1
        decCkEven := if s.decCount.getLsbD 0 then s.decCkEven else s.decCkEven ^^^ b
        decCkOdd := if s.decCount.getLsbD 0 then s.decCkOdd ^^^ b else s.decCkOdd } := by
  unfold accumulate
  split <;> rfl

@[simp] theorem accumulate_rxp (b : Byte) (s : State) : (accumulate b s).rxp = s.rxp := by
  rw [accumulate_eq]

@[simp] theorem accumulate_decState (b : Byte) (s : State) :
    (accumulate b s).decState = s.decState := by
  rw [accumulate_eq]

@[simp] theorem accumulate_decCursor (b : Byte) (s : State) :
    (accumulate b s).decCursor = s.decCursor := by
  rw [accumulate_eq]

@[simp] theorem accumulate_decErr (b : Byte) (s : State) : (accumulate b s).decErr = s.decErr := by
  rw [accumulate_eq]

@[simp] theorem accumulate_rxCommand (b : Byte) (s : State) :
    (accumulate b s).rxCommand = s.rxCommand := by
  rw [accumulate_eq]

@[simp] theorem accumulate_rxLength (b : Byte) (s : State) :
    (accumulate b s).rxLength = s.rxLength := by
  rw [accumulate_eq]

@[simp] theorem memRead_accumulate (b : Byte) (sp : Space) (i : Nat) (s : State) :
    memRead sp i (accumulate b s) = memRead sp i s := by
  rw [accumulate_eq]
  apply memRead_congr
  · cases sp <;> rfl
  · rfl

/-- The model looks at bit 0 of a half word where the statements speak of the remainder by 2. -/
theorem getLsbD_zero_iff (x : Half) : x.getLsbD 0 = true ↔ x.toNat % 2 = 1 := by
  simp [BitVec.getLsbD]

theorem accumulated_accumulate (b : Byte) (s : State) : accumulated b s (accumulate b s) := by
  rw [accumulate_eq]
  refine ⟨rfl, fun heven => ?_, fun hodd => ?_⟩
  · have bit : ¬s.decCount.getLsbD 0 = true := by rw [getLsbD_zero_iff]; omega
    exact ⟨if_neg bit, if_neg bit⟩
  · have bit : s.decCount.getLsbD 0 = true := (getLsbD_zero_iff _).2 hodd
    exact ⟨if_pos bit, if_pos bit⟩

/-! ## One byte consumed, by the decoder's state -/

/-- "Advance": the next state in the numbering of R23 (R120). -/
def DecState.advance : DecState → DecState
  | .noFrame => .frameMarkerRead
  | .frameMarkerRead => .destinationRead
  | .destinationRead => .sourceRead
  | .sourceRead => .commandRead
  | .commandRead => .lengthHighRead
  | .lengthHighRead => .lengthLowRead
  | .lengthLowRead => .payloadRead
  | .payloadRead => .paddingRead
  | .paddingRead => .evenChecksumRead
  | .evenChecksumRead => .ready
  | .ready => .ready
  | .error => .error

/-- "Advance means `dec_state <- dec_state + 1`" (R120). -/
theorem DecState.code_advance {st : DecState} (h : st.terminal = false) :
    st.advance.code = st.code + 1 := by
  revert h
  cases st <;> decide

theorem decConsume_marker {s : State} (hstate : s.decState = .noFrame) :
    decConsume s.cfg.frameMarker s =
      { accumulate s.cfg.frameMarker s with decState := .frameMarkerRead } := by
  simp [decConsume, hstate]

theorem decConsume_stray {b : Byte} {s : State} (hstate : s.decState = .noFrame)
    (hb : b ≠ s.cfg.frameMarker) : decConsume b s = s := by
  simp [decConsume, hstate, hb]

/-- The five states whose byte is accumulated and no more than stored (R124 to R127, R130). -/
theorem decConsume_header (b : Byte) {s : State}
    (hstate : s.decState = .frameMarkerRead ∨ s.decState = .destinationRead ∨
      s.decState = .sourceRead ∨ s.decState = .commandRead ∨ s.decState = .payloadRead) :
    decConsume b s =
      { accumulate b s with
        decState := s.decState.advance
        rxCommand := if s.decState = .sourceRead then b else s.rxCommand
        rxLength := if s.decState = .commandRead then lengthOf b 0x00 else s.rxLength } := by
  rcases hstate with h | h | h | h | h <;> simp [decConsume, DecState.advance, h]

theorem decConsume_lengthLow (b : Byte) {s : State} (hstate : s.decState = .lengthHighRead) :
    decConsume b s = decLengthLow b s := by
  simp [decConsume, hstate]

theorem rxLengthOk_iff (p : Params) (len : Half) :
    rxLengthOk p len = true ↔ 1 ≤ len.toNat ∧ len.toNat ≤ p.maxPayload := by
  simp [rxLengthOk]

theorem not_rxLengthOk_iff (p : Params) (len : Half) :
    ¬rxLengthOk p len = true ↔ len.toNat = 0 ∨ p.maxPayload < len.toNat := by
  rw [rxLengthOk_iff]
  omega

/-- The length low byte (R128): the outcome of the test is in `dec_state` and `dec_err` alone. -/
theorem decLengthLow_eq (b : Byte) (s : State) :
    decLengthLow b s =
      { accumulate b s with
        rxLength := lengthOf (s.rxLength.extractLsb' 8 8) b
        decCursor := 0
        decState :=
          if rxLengthOk s.cfg (lengthOf (s.rxLength.extractLsb' 8 8) b) then .lengthLowRead else .error
        decErr :=
          if rxLengthOk s.cfg (lengthOf (s.rxLength.extractLsb' 8 8) b) then s.decErr else .length } := by
  by_cases h : rxLengthOk s.cfg (lengthOf (s.rxLength.extractLsb' 8 8) b) = true <;>
    simp [decLengthLow, decFail, h]

theorem decConsume_payload (b : Byte) {s : State} (hstate : s.decState = .lengthLowRead) :
    decConsume b s = decPayload b s := by
  simp [decConsume, hstate]

/-- A payload byte (R129): where it leaves the decoder depends on the cursor and the parity of the
length. -/
theorem decPayload_eq (b : Byte) (s : State) :
    decPayload b s =
      { memWrite .rxp s.decCursor.toNat b (accumulate b s) with
        decCursor := s.decCursor + 1
        decState :=
          if s.decCursor + 1 = s.rxLength then
            if s.rxLength.toNat % 2 = 1 then .payloadRead else .paddingRead
          else s.decState } := by
  by_cases last : s.decCursor + 1 = s.rxLength
  · have parity (x y : DecState) :
        (if s.rxLength.getLsbD 0 then x else y) = if s.rxLength.toNat % 2 = 1 then x else y := by
      simp only [getLsbD_zero_iff]
    simp only [decPayload, if_pos last, parity]
  · simp only [decPayload, if_neg last, memWrite_decState, accumulate_decState]

/-- The accumulated checksum that the next checksum byte must equal: first the even one (R131), then the
odd one (R132). -/
def expectedChecksum (s : State) : Byte :=
  if s.decState = .paddingRead then s.decCkEven else s.decCkOdd

theorem expectedChecksum_even {s : State} (hstate : s.decState = .paddingRead) :
    expectedChecksum s = s.decCkEven :=
  if_pos hstate

theorem expectedChecksum_odd {s : State} (hstate : s.decState = .evenChecksumRead) :
    expectedChecksum s = s.decCkOdd :=
  if_neg (by simp [hstate])

theorem decChecksum_eq (b expected : Byte) (next : DecState) (s : State) :
    decChecksum b expected next s =
      { s with
        decCount := s.decCount + 1
        decState := if b = expected then next else .error
        decErr := if b = expected then s.decErr else .checksum } := by
  by_cases h : b = expected <;> simp [decChecksum, decFail, countByte, h]

/-- A checksum byte (R131, R132): the outcome of the comparison is in `dec_state` and `dec_err` alone. -/
theorem decConsume_checksum (b : Byte) {s : State}
    (hstate : s.decState = .paddingRead ∨ s.decState = .evenChecksumRead) :
    decConsume b s =
      { s with
        decCount := s.decCount + 1
        decState := if b = expectedChecksum s then s.decState.advance else .error
        decErr := if b = expectedChecksum s then s.decErr else .checksum } := by
  rw [← decChecksum_eq]
  rcases hstate with h | h <;> simp [decConsume, DecState.advance, expectedChecksum, h]

/-- Only a payload byte is stored in `RXP` (R30). -/
theorem decConsume_rxp (b : Byte) {s : State} (hstate : s.decState ≠ .lengthLowRead) :
    (decConsume b s).rxp = s.rxp := by
  cases hs : s.decState
  case noFrame => by_cases hb : b = s.cfg.frameMarker <;> simp [decConsume, hs, hb]
  case lengthHighRead => simp [decConsume_lengthLow b hs, decLengthLow_eq]
  case lengthLowRead => exact absurd hs hstate
  case paddingRead => simp [decConsume_checksum b (.inl hs)]
  case evenChecksumRead => simp [decConsume_checksum b (.inr hs)]
  all_goals simp [decConsume, hs]

/-! ## DEC_STEP with a byte in the ring -/

/-- What `DEC_STEP` makes of the state `u` in which the byte has been consumed: it answers with the
decoder's state (R121). -/
def decAnswer (u : State) : State :=
  answer .host .ok (u.decState.code.setWidth 16) (renewRx u)

@[simp] theorem decAnswer_decState (u : State) : (decAnswer u).decState = u.decState := rfl
@[simp] theorem decAnswer_decCount (u : State) : (decAnswer u).decCount = u.decCount := rfl
@[simp] theorem decAnswer_decCkEven (u : State) : (decAnswer u).decCkEven = u.decCkEven := rfl
@[simp] theorem decAnswer_decCkOdd (u : State) : (decAnswer u).decCkOdd = u.decCkOdd := rfl
@[simp] theorem decAnswer_decCursor (u : State) : (decAnswer u).decCursor = u.decCursor := rfl
@[simp] theorem decAnswer_decErr (u : State) : (decAnswer u).decErr = u.decErr := rfl
@[simp] theorem decAnswer_rxCommand (u : State) : (decAnswer u).rxCommand = u.rxCommand := rfl
@[simp] theorem decAnswer_rxLength (u : State) : (decAnswer u).rxLength = u.rxLength := rfl

/-- Only the count and the checksums say whether a byte was accumulated. -/
theorem accumulated_of_registers {b : Byte} {s u : State}
    (count : u.decCount = (accumulate b s).decCount)
    (even : u.decCkEven = (accumulate b s).decCkEven)
    (odd : u.decCkOdd = (accumulate b s).decCkOdd) :
    accumulated b s (decAnswer u) := by
  have acc := accumulated_accumulate b s
  rw [accumulated, ← count, ← even, ← odd] at acc
  exact acc

theorem exec_decStep_of_byte {s : State} (hbyte : s.rbRd ≠ s.rbWr)
    (hrun : s.decState.terminal = false) :
    exec .decStep s = .next (decAnswer (decConsume (ringFront s) (ringPop s))) := by
  rcases decStepOp_cases s with ⟨terminal, -⟩ | ⟨-, empty, -⟩ | ⟨-, -, taken⟩
  · simp [hrun] at terminal
  · exact absurd ((ringEmpty_iff s).1 empty) hbyte
  · exact congrArg (fun q => Host.Outcome.next (answer .host .ok (decReturn q.2) q.1)) taken

theorem memRead_decAnswer (sp : Space) (i : Nat) (u : State) :
    memRead sp i (decAnswer u) = memRead sp i u := by
  simp [decAnswer]

/-- Whatever the byte does to the decoder, it has left the ring and nothing outside the decoder changed. -/
theorem tookByte_decAnswer (s : State) :
    tookByte s (decAnswer (decConsume (ringFront s) (ringPop s))) := by
  obtain ⟨_, _, _, _, _, _, _, _, _, consumed⟩ := decConsume_frame (ringFront s) (ringPop s)
  rw [consumed]
  simp [decAnswer, nextIndex, tookByte, answered, sameSession, sameTimer, sameTransmit, sameInputs]

theorem sameMemory_decAnswer {s : State} (hstate : s.decState ≠ .lengthLowRead) :
    sameMemory s (decAnswer (decConsume (ringFront s) (ringPop s))) := by
  intro sp i
  have kept : (decConsume (ringFront s) (ringPop s)).rxp = s.rxp := decConsume_rxp _ hstate
  obtain ⟨_, _, _, _, _, _, _, _, _, consumed⟩ := decConsume_frame (ringFront s) (ringPop s)
  rw [memRead_decAnswer]
  rw [consumed] at kept ⊢
  apply memRead_congr
  · cases sp
    case rxp => exact kept
    all_goals rfl
  · rfl

/-! ## DEC_STEP, by the decoder's state -/

/-- Settles O31: the two clauses are the marker and the stray byte. -/
theorem decStepLooksForTheMarker : Obligations.DecStepLooksForTheMarker := by
  intro s hbyte hstate
  have run : s.decState.terminal = false := by rw [hstate]; rfl
  refine ⟨_, exec_decStep_of_byte hbyte run, tookByte_decAnswer s,
    sameMemory_decAnswer (by simp [hstate]), ?marker, ?stray⟩
  case marker =>
    intro hb
    have front : ringFront s = (ringPop s).cfg.frameMarker := hb
    rw [front, decConsume_marker (s := ringPop s) hstate]
    exact ⟨rfl, accumulated_of_registers (s := ringPop s) rfl rfl rfl, by simp⟩
  case stray =>
    intro hb
    rw [decConsume_stray (b := ringFront s) (s := ringPop s) hstate hb]
    simp [decAnswer, sameDecoder]

/-- Settles O32: `decConsume_header` is the effect of the byte in all five states. -/
theorem decStepReadsHeaderAndPadding : Obligations.DecStepReadsHeaderAndPadding := by
  intro s hbyte hstate
  have run : s.decState.terminal = false := by
    rcases hstate with h | h | h | h | h <;> rw [h] <;> rfl
  have noPayload : s.decState ≠ .lengthLowRead := by
    rcases hstate with h | h | h | h | h <;> rw [h] <;> decide
  refine ⟨_, exec_decStep_of_byte hbyte run, tookByte_decAnswer s, sameMemory_decAnswer noPayload, ?_⟩
  rw [decConsume_header (s := ringPop s) (ringFront s) hstate]
  refine ⟨accumulated_of_registers (s := ringPop s) rfl rfl rfl, by simp, by simp, ?_, ?_, ?_, ?_, ?_,
    rfl, rfl⟩
  all_goals
    intro h
    simp [h, DecState.advance]

/-- Settles O33: `decLengthLow_eq`, with `rxLengthOk` as the test of the two clauses. -/
theorem decStepTestsTheLength : Obligations.DecStepTestsTheLength := by
  intro s hbyte hstate
  have run : s.decState.terminal = false := by rw [hstate]; rfl
  refine ⟨_, exec_decStep_of_byte hbyte run, tookByte_decAnswer s,
    sameMemory_decAnswer (by simp [hstate]), ?_⟩
  rw [decConsume_lengthLow (s := ringPop s) (ringFront s) hstate, decLengthLow_eq]
  refine ⟨accumulated_of_registers (s := ringPop s) rfl rfl rfl, by simp, by simp, rfl,
    fun inRange => ?_, fun outOfRange => ?_⟩
  · have ok := (rxLengthOk_iff s.cfg _).2 inRange
    exact ⟨if_pos ok, if_pos ok⟩
  · have refused := (not_rxLengthOk_iff s.cfg _).2 outOfRange
    exact ⟨if_neg refused, if_neg refused⟩

/-- The payload byte is what `RXP` holds at the cursor from now on; every other byte stays. -/
theorem memRead_decAnswer_payload {s : State} (hstate : s.decState = .lengthLowRead) (sp : Space)
    (i : Nat) :
    memRead sp i (decAnswer (decConsume (ringFront s) (ringPop s))) =
      if sp = .rxp ∧ i = s.decCursor.toNat then ringFront s else memRead sp i s :=
  calc memRead sp i (decAnswer (decConsume (ringFront s) (ringPop s)))
      = memRead sp i (decPayload (ringFront s) (ringPop s)) := by
        rw [memRead_decAnswer, decConsume_payload (s := ringPop s) (ringFront s) hstate]
    _ = memRead sp i
          (memWrite .rxp s.decCursor.toNat (ringFront s) (accumulate (ringFront s) (ringPop s))) := by
        rw [decPayload_eq]
        apply memRead_congr
        · cases sp <;> rfl
        · rfl
    _ = _ := by rw [memRead_memWrite, memRead_accumulate, memRead_ringPop]

/-- Settles O34, by `decPayload_eq` and the read-after-write law of the memories. -/
theorem decStepStoresPayload : Obligations.DecStepStoresPayload := by
  intro s hbyte hstate
  have run : s.decState.terminal = false := by rw [hstate]; rfl
  have read := memRead_decAnswer_payload hstate
  have stored := (read .rxp s.decCursor.toNat).trans (if_pos ⟨rfl, rfl⟩)
  have others : sameMemoryBut .rxp s.decCursor.toNat s _ :=
    fun sp i other => (read sp i).trans (if_neg other)
  refine ⟨_, exec_decStep_of_byte hbyte run, tookByte_decAnswer s, ?accumulated, stored, others,
    ?registers⟩
  all_goals rw [decConsume_payload (s := ringPop s) (ringFront s) hstate, decPayload_eq]
  case accumulated =>
    exact accumulated_of_registers (b := ringFront s) (s := ringPop s) (by simp) (by simp) (by simp)
  case registers =>
    refine ⟨rfl, by simp, by simp, by simp, fun more => ?_, fun last even => ?_, fun last odd => ?_⟩
    · exact (if_neg more).trans hstate
    · exact (if_pos last).trans (if_neg (by simp [even]))
    · exact (if_pos last).trans (if_pos odd)

/-- Settles O35: a match and a difference are the two branches of `decConsume_checksum`, whichever of the
two bytes is due. -/
theorem decStepComparesChecksums : Obligations.DecStepComparesChecksums := by
  intro s hbyte hstate
  have run : s.decState.terminal = false := by
    rcases hstate with h | h <;> rw [h] <;> rfl
  have noPayload : s.decState ≠ .lengthLowRead := by
    rcases hstate with h | h <;> rw [h] <;> decide
  refine ⟨_, exec_decStep_of_byte hbyte run, tookByte_decAnswer s, sameMemory_decAnswer noPayload, ?_⟩
  rw [decConsume_checksum (s := ringPop s) (ringFront s) hstate]
  refine ⟨rfl, rfl, rfl, rfl, rfl, rfl, ?even, ?odd, ?differs⟩
  case even =>
    intro hs hb
    have same : ringFront s = expectedChecksum (ringPop s) := hb.trans (expectedChecksum_even hs).symm
    exact ⟨(if_pos same).trans (congrArg DecState.advance hs), if_pos same⟩
  case odd =>
    intro hs hb
    have same : ringFront s = expectedChecksum (ringPop s) := hb.trans (expectedChecksum_odd hs).symm
    exact ⟨(if_pos same).trans (congrArg DecState.advance hs), if_pos same⟩
  case differs =>
    intro h
    have differs : ringFront s ≠ expectedChecksum (ringPop s) := by
      rcases h with ⟨hs, hb⟩ | ⟨hs, hb⟩
      · exact fun same => hb (same.trans (expectedChecksum_even hs))
      · exact fun same => hb (same.trans (expectedChecksum_odd hs))
    exact ⟨if_neg differs, if_neg differs⟩

/-! ## DEC_RESET -/

/-- Settles O36: `DEC_RESET` has no condition, so the field lemmas of `decReset` give every part. -/
theorem decResetClearsTheDecoder : Obligations.DecResetClearsTheDecoder := by
  refine ⟨⟨by decide, rfl⟩, fun s => ⟨answer .host .ok 0 (decReset s), rfl, ?_⟩⟩
  simp [answered, decoderCleared, sameRing, sameMemory, sameSession, sameTimer, sameTransmit, sameInputs]

end Sys2Proof.Machine
end

section
/-! The encoder (spec/42_encoder.md). First the bytes of an emission, then what the preamble and the sequence
injection make of the state, then a whole frame sent from `TXP`, then the statement that is settled with it.
-/

namespace Sys2Proof.Machine

/-! ## The bytes of an emission -/

/-- The payload loop folds the two parity XORs into the sums, swapped if it starts at an odd index. -/
theorem sumPayload_eq (vs : List Byte) (i : Nat) (c : Byte × Byte) :
    sumPayload vs i c =
      if i % 2 = 0 then (c.1 ^^^ (parityXor vs).1, c.2 ^^^ (parityXor vs).2)
      else (c.1 ^^^ (parityXor vs).2, c.2 ^^^ (parityXor vs).1) := by
  induction vs generalizing i c with
  | nil => simp [sumPayload, parityXor]
  | cons v vs ih =>
    by_cases even : i % 2 = 0
    · have odd : ¬((i + 1) % 2 = 0) := by omega
      simp [sumPayload, parityXor, ih, even, odd, BitVec.xor_assoc]
    · have odd : (i + 1) % 2 = 0 := by omega
      simp [sumPayload, parityXor, ih, even, odd, BitVec.xor_assoc]

/-- The padding byte is zero, so whether it is folded in does not matter (R144, conflict C4). -/
theorem parityXor_append_paddingOf (xs payload : List Byte) :
    parityXor (xs ++ paddingOf payload) = parityXor xs := by
  have zero : parityXor (paddingOf payload) = (0, 0) := by
    unfold paddingOf
    split <;> rfl
  simp [parityXor_append, zero]

/-- The six header bytes have even length, so the payload's checksums do not swap. -/
theorem parityXor_header_append (p : Params) (cmd : Byte) (n : Nat) (payload : List Byte) :
    parityXor (headerBytes p cmd n ++ payload) = sumPayload payload 0 (seedSums p cmd n) := by
  rw [parityXor_append, sumPayload_eq]
  simp [headerBytes, seedSums, parityXor, BitVec.xor_assoc]

/-- What the encoder emits is the frame of R82, addressed with the parameters' addresses (R144). -/
theorem emission_eq_frameBytes (p : Params) (cmd : Byte) (payload : List Byte) :
    emission p cmd payload = frameBytes p p.addrDest p.addrSrc cmd payload := by
  have body : frameBody p p.addrDest p.addrSrc cmd payload =
      headerBytes p cmd payload.length ++ payload ++ paddingOf payload := rfl
  rw [frameBytes, body, parityXor_append_paddingOf, parityXor_header_append]
  rfl

/-! ## The length check -/

theorem encodeRefused_iff (p : Params) (cmd : Byte) (len : Half) :
    encodeRefused p cmd len.toNat = true ↔ p.maxPayload < len.toNat ∨ cmd ≠ p.ackCmd ∧ len = 0 := by
  simp [encodeRefused, BitVec.toNat_eq]

/-! ## The preamble and the sequence injection -/

/-- The whole of the second step: the preamble is empty once it has been sent (R142). -/
theorem sendPreamble_eq (s : State) :
    sendPreamble s = { s with txStream := s.txStream ++ preamble s, synchronized := true } := by
  by_cases sent : s.synchronized = true
  · cases s
    simp_all [sendPreamble, preamble]
  · simp [sendPreamble, preamble, sent, txEmit]

theorem memRead_sendPreamble (sp : Space) (i : Nat) (s : State) :
    memRead sp i (sendPreamble s) = memRead sp i s := by
  rw [sendPreamble_eq]
  apply memRead_congr
  · cases sp <;> rfl
  · rfl

theorem injectSequence_of_ack {cmd : Byte} {s : State} (ack : cmd = s.cfg.ackCmd) (buf : Space) (n : Nat) :
    injectSequence cmd buf n s = s :=
  if_pos ack

theorem injectSequence_of_not_ack {cmd : Byte} {s : State} (data : cmd ≠ s.cfg.ackCmd) (buf : Space)
    (n : Nat) :
    injectSequence cmd buf n s =
      { memWrite buf (n - 1) (sequenceMarker s.cfg s.lnkSeq) s with lnkSeq := s.lnkSeq + 1 } :=
  if_neg data

@[simp] theorem injectSequence_cfg (cmd : Byte) (buf : Space) (n : Nat) (s : State) :
    (injectSequence cmd buf n s).cfg = s.cfg := by
  unfold injectSequence
  split
  · rfl
  · cases buf <;> rfl

@[simp] theorem injectSequence_txStream (cmd : Byte) (buf : Space) (n : Nat) (s : State) :
    (injectSequence cmd buf n s).txStream = s.txStream := by
  unfold injectSequence
  split
  · rfl
  · cases buf <;> rfl

/-- For every command but the acknowledgement the marker is what the last byte of the buffer reads as; every
other byte reads as before (R143). -/
theorem memRead_injectSequence (cmd : Byte) (buf sp : Space) (n i : Nat) (s : State) :
    memRead sp i (injectSequence cmd buf n s) =
      if cmd ≠ s.cfg.ackCmd ∧ sp = buf ∧ i = n - 1 then sequenceMarker s.cfg s.lnkSeq
      else memRead sp i s := by
  by_cases ack : cmd = s.cfg.ackCmd
  case pos => rw [injectSequence_of_ack ack, if_neg fun marked => marked.1 ack]
  case neg =>
    calc memRead sp i (injectSequence cmd buf n s)
        = memRead sp i (memWrite buf (n - 1) (sequenceMarker s.cfg s.lnkSeq) s) := by
          rw [injectSequence_of_not_ack ack]
          apply memRead_congr
          · cases sp <;> rfl
          · rfl
      _ = _ := by simp [memRead_memWrite, ack]

/-! ## A whole frame -/

/-- What is read after a frame was sent: the preamble and the emission store nothing. -/
theorem memRead_encodeAndSend (cmd : Byte) (buf sp : Space) (n i : Nat) (s : State) :
    memRead sp i (encodeAndSend cmd buf n s) =
      if cmd ≠ s.cfg.ackCmd ∧ sp = buf ∧ i = n - 1 then sequenceMarker s.cfg s.lnkSeq
      else memRead sp i s := by
  rw [encodeAndSend, emitFrame, memRead_txEmit, memRead_injectSequence, memRead_sendPreamble,
    sendPreamble_eq]

theorem encodeAndSend_lnkSeq (cmd : Byte) (buf : Space) (n : Nat) (s : State) :
    (encodeAndSend cmd buf n s).lnkSeq = if cmd = s.cfg.ackCmd then s.lnkSeq else s.lnkSeq + 1 := by
  rw [encodeAndSend, emitFrame, txEmit_lnkSeq, sendPreamble_eq]
  unfold injectSequence
  split <;> rfl

/-- The stream grows by the preamble and the frame of the bytes that the buffer reads as once the marker is in
it (R142, R144). -/
theorem encodeAndSend_txStream (cmd : Byte) (buf : Space) (n : Nat) (s : State) :
    (encodeAndSend cmd buf n s).txStream =
      s.txStream ++ preamble s ++
        frameBytes s.cfg s.cfg.addrDest s.cfg.addrSrc cmd (memBytes buf n (encodeAndSend cmd buf n s)) := by
  have bytes : memBytes buf n (encodeAndSend cmd buf n s) =
      memBytes buf n (injectSequence cmd buf n (sendPreamble s)) := by
    simp [memBytes, encodeAndSend, emitFrame]
  rw [bytes, ← emission_eq_frameBytes]
  simp [encodeAndSend, emitFrame, sendPreamble_eq]

theorem memBytes_succ (sp : Space) (n : Nat) (s : State) :
    memBytes sp (n + 1) s = memBytes sp n s ++ [memRead sp n s] := by
  simp [memBytes, List.range_succ]

/-- The bytes of `TXP` after the frame was sent are the ones that were sent (R143, R148). -/
theorem memBytes_encodeAndSend_txp {cmd : Byte} {s : State} (length : cmd = s.cfg.ackCmd ∨ s.txLen ≠ 0) :
    memBytes .txp s.txLen.toNat (encodeAndSend cmd .txp s.txLen.toNat s) = outgoing cmd s := by
  by_cases ack : cmd = s.cfg.ackCmd
  case pos => simp [memBytes, memRead_encodeAndSend, outgoing, ack]
  case neg =>
    have nonempty : s.txLen ≠ 0 := length.resolve_left ack
    obtain ⟨last, hlast⟩ : ∃ last, s.txLen.toNat = last + 1 :=
      Nat.exists_eq_succ_of_ne_zero fun zero => nonempty (BitVec.eq_of_toNat_eq zero)
    have front : memBytes .txp last (encodeAndSend cmd .txp (last + 1) s) = memBytes .txp last s := by
      apply List.map_congr_left
      intro i before
      have other : i ≠ last := by
        have := List.mem_range.1 before
        omega
      simp [memRead_encodeAndSend, other]
    rw [outgoing, if_neg ack, hlast, memBytes_succ, front]
    simp [memRead_encodeAndSend, ack]

/-- A frame that passed the length check is sent as R142 to R144 say. -/
theorem sentFrame_encodeAndSend {cmd : Byte} {s : State} (length : cmd = s.cfg.ackCmd ∨ s.txLen ≠ 0) :
    sentFrame cmd s (encodeAndSend cmd .txp s.txLen.toNat s) := by
  have stream := encodeAndSend_txStream cmd .txp s.txLen.toNat s
  rw [memBytes_encodeAndSend_txp length] at stream
  obtain ⟨synchronized, txLen⟩ : (encodeAndSend cmd .txp s.txLen.toNat s).synchronized = true ∧
      (encodeAndSend cmd .txp s.txLen.toNat s).txLen = s.txLen := by
    obtain ⟨_, _, _, sent⟩ := encodeAndSend_frame cmd .txp s.txLen.toNat s
    rw [sent]
    exact ⟨rfl, rfl⟩
  refine ⟨stream, synchronized, txLen, fun ack => ⟨?_, fun sp i => ?_⟩,
    fun data => ⟨?_, ?_, fun sp i other => ?_⟩⟩
  · rw [encodeAndSend_lnkSeq, if_pos ack]
  · rw [memRead_encodeAndSend, if_neg fun marked => marked.1 ack]
  · rw [encodeAndSend_lnkSeq, if_neg data]
  · rw [memRead_encodeAndSend, if_pos ⟨data, rfl, rfl⟩]
  · rw [memRead_encodeAndSend, if_neg fun marked => other marked.2]

/-- Answering does not touch what sending a frame is about. -/
theorem sentFrame_answer {cmd : Byte} {s t : State} (p : Port) (st : Status) (v : Half)
    (sent : sentFrame cmd s t) : sentFrame cmd s (answer p st v t) := by
  simpa [sentFrame, sameMemory, sameMemoryBut] using sent

/-- Sending a frame leaves everything outside the encoder as it was (R145). -/
theorem encodeAndSend_keeps (cmd : Byte) (buf : Space) (n : Nat) (s : State) :
    (encodeAndSend cmd buf n s).results = s.results ∧ sameRing s (encodeAndSend cmd buf n s) ∧
      sameDecoder s (encodeAndSend cmd buf n s) ∧ sameSession s (encodeAndSend cmd buf n s) ∧
      sameTimer s (encodeAndSend cmd buf n s) ∧ sameInputs s (encodeAndSend cmd buf n s) := by
  obtain ⟨_, _, _, sent⟩ := encodeAndSend_frame cmd buf n s
  rw [sent]
  cases buf <;> simp [State.setMem, sameRing, sameDecoder, sameSession, sameTimer, sameInputs]

/-! ## ENC_FRAME -/

theorem decodeWord_encFrame (cmd : Byte) : decodeWord (packWord 0x06 0 cmd) = .ok (.encFrame cmd) := by
  simp [decodeWord, ifZero]

theorem exec_encFrame_of_refused {cmd : Byte} {s : State}
    (refused : encodeRefused s.cfg cmd s.txLen.toNat = true) :
    exec (.encFrame cmd) s = .next (answer .host .errLen 0 s) :=
  congrArg Host.Outcome.next (if_pos refused)

theorem exec_encFrame_of_not_refused {cmd : Byte} {s : State}
    (passed : ¬encodeRefused s.cfg cmd s.txLen.toNat = true) :
    exec (.encFrame cmd) s = .next (answer .host .ok 0 (encodeAndSend cmd .txp s.txLen.toNat s)) :=
  congrArg Host.Outcome.next (if_neg passed)

/-- Settles O40, by whether the length check refuses the frame. -/
theorem encFrameSendsOrRefuses : Obligations.EncFrameSendsOrRefuses := by
  refine ⟨fun cmd => ⟨decodeWord_encFrame cmd, rfl⟩, fun cmd s => ?_⟩
  have check := encodeRefused_iff s.cfg cmd s.txLen
  by_cases refused : encodeRefused s.cfg cmd s.txLen.toNat = true
  case pos =>
    refine ⟨_, exec_encFrame_of_refused refused, fun _ => onlyAnswered_answer .host .errLen 0 s,
      fun fits length => ?_⟩
    rcases check.1 refused with long | ⟨data, empty⟩
    · exact absurd fits (Nat.not_le.2 long)
    · exact absurd empty (length.resolve_left data)
  case neg =>
    refine ⟨_, exec_encFrame_of_not_refused refused, fun range => absurd (check.2 range) refused,
      fun _ length => ?_⟩
    obtain ⟨results, others⟩ := encodeAndSend_keeps cmd .txp s.txLen.toNat s
    exact ⟨congrArg (· ++ _) results, sentFrame_answer .host .ok 0 (sentFrame_encodeAndSend length), others⟩

end Sys2Proof.Machine
end

section
/-! The link operations (spec/43_link.md): the timer service's expiry callback. First what it makes of the
state, then the statement that is settled with it. -/

namespace Sys2Proof.Machine

/-! ## TMR_EXPIRE -/

/-- The timer's flag says nothing about the bytes stored. -/
theorem memRead_tmrFired (sp : Space) (i : Nat) (fired : Bool) (s : State) :
    memRead sp i { s with tmrFired := fired } = memRead sp i s := by
  apply memRead_congr
  · cases sp <;> rfl
  · rfl

/-- Armed or not, the expiry is one update of the flag (R168): without an armed timer it keeps its value. -/
theorem tmrExpireOp_eq (s : State) :
    tmrExpireOp s = answer .timer .ok 0 { s with tmrFired := s.tmrFired || s.tmrArmed } := by
  unfold tmrExpireOp
  by_cases armed : s.tmrArmed = true
  case pos =>
    have fires : (s.tmrFired || s.tmrArmed) = true := by simp [armed]
    rw [if_pos armed, fires]
  case neg =>
    have kept : (s.tmrFired || s.tmrArmed) = s.tmrFired := by simp [armed]
    rw [if_neg armed, kept]

theorem exec_tmrExpire (s : State) :
    exec .tmrExpire s =
      .next (answer .timer .ok 0 { s with tmrFired := s.tmrFired || s.tmrArmed }) :=
  congrArg Host.Outcome.next (tmrExpireOp_eq s)

/-- Settles O50: `exec_tmrExpire` gives the next state for an armed and for a stopped timer at once. -/
theorem tmrExpireOnlySetsTheFlag : Obligations.TmrExpireOnlySetsTheFlag := by
  refine ⟨⟨by decide, rfl⟩, fun s => ⟨_, exec_tmrExpire s, ?_⟩⟩
  simp [answered, sameRing, sameDecoder, sameSession, sameTransmit, sameMemory, sameInputs,
    memRead_tmrFired]

end Sys2Proof.Machine
end

section
/-! The access operations (spec/44_access_ops.md): NOP and TXB_WRITE. First what each of them makes of the
state, then the statements that are settled with it. -/

namespace Sys2Proof.Machine

/-! ## NOP -/

theorem exec_nop (s : State) : exec .nop s = .next (answer .host .ok 0 s) := rfl

/-- Settles O41: `NOP` is nothing but an answer, and its word is decided by evaluation. -/
theorem nopChangesNothing : Obligations.NopChangesNothing :=
  ⟨⟨by decide, rfl⟩, fun s => ⟨_, exec_nop s, onlyAnswered_answer .host .ok 0 s⟩⟩

/-! ## What a byte written leaves alone -/

/-- Everything but the memories and the results is as before. -/
abbrev sameBesidesMemory (s t : State) : Prop :=
  sameRing s t ∧ sameDecoder s t ∧ sameSession s t ∧ sameTimer s t ∧ sameTransmit s t ∧ sameInputs s t

theorem sameBesidesMemory_answer_memWrite (p : Port) (st : Status) (v : Half) (sp : Space) (i : Nat)
    (b : Byte) (s : State) : sameBesidesMemory s (answer p st v (memWrite sp i b s)) := by
  simp [sameBesidesMemory, sameRing, sameDecoder, sameSession, sameTimer, sameTransmit, sameInputs]

/-! ## TXB_WRITE -/

/-- The whole of `a` and of `b` are operands, so no field has to be zero (R91). -/
theorem decodeWord_txbWrite (idx : Half) (b : Byte) :
    decodeWord (packWord 0x07 idx b) = .ok (.txbWrite idx b) := by
  simp [decodeWord]

theorem indexOk_iff (p : Params) (idx : Half) : indexOk p idx = true ↔ idx.toNat < p.maxPayload := by
  simp [indexOk]

theorem exec_txbWrite_of_indexOk {idx : Half} {s : State} (b : Byte) (h : indexOk s.cfg idx = true) :
    exec (.txbWrite idx b) s = .next (answer .host .ok 0 (memWrite .txp idx.toNat b s)) :=
  congrArg Host.Outcome.next (if_pos h)

theorem exec_txbWrite_of_not_indexOk {idx : Half} {s : State} (b : Byte)
    (h : ¬indexOk s.cfg idx = true) :
    exec (.txbWrite idx b) s = .next (answer .host .errIndex 0 s) :=
  congrArg Host.Outcome.next (if_neg h)

/-- Settles O43, by whether the index is in range: in range it is `memRead_memWrite` that says which byte
changed. -/
theorem txbWriteStoresOneByte : Obligations.TxbWriteStoresOneByte := by
  refine ⟨fun idx b => ⟨decodeWord_txbWrite idx b, rfl⟩, fun idx b s => ?_⟩
  by_cases h : idx.toNat < s.cfg.maxPayload
  case pos =>
    have stored : memRead .txp idx.toNat (answer .host .ok 0 (memWrite .txp idx.toNat b s)) = b := by
      rw [memRead_answer, memRead_memWrite, if_pos ⟨rfl, rfl⟩]
    have others : sameMemoryBut .txp idx.toNat s (answer .host .ok 0 (memWrite .txp idx.toNat b s)) := by
      intro sp i hother
      rw [memRead_answer, memRead_memWrite, if_neg hother]
    exact ⟨_, exec_txbWrite_of_indexOk b ((indexOk_iff _ _).2 h), fun range => absurd h (Nat.not_lt.2 range),
      fun _ => ⟨rfl, stored, others, sameBesidesMemory_answer_memWrite .host .ok 0 .txp idx.toNat b s⟩⟩
  case neg =>
    exact ⟨_, exec_txbWrite_of_not_indexOk b (mt (indexOk_iff _ _).1 h),
      fun _ => onlyAnswered_answer .host .errIndex 0 s, fun range => absurd range h⟩

end Sys2Proof.Machine
end

section
/-! Hardware reset (spec/70_reset_and_hazards.md). First the decoder and the memories of the reset state,
then the statement that is settled with them. -/

namespace Sys2Proof.Machine

/-! ## The reset state -/

/-- Whatever the parameters are (R233), reset leaves the decoder as `DEC_RESET` does. -/
theorem decoderCleared_resetWith (p : Params) : decoderCleared (State.resetWith p) :=
  ⟨rfl, rfl, rfl, rfl, rfl, rfl, rfl, rfl⟩

theorem Memory.read_nil (i : Nat) : Memory.read [] i = none := rfl

/-- No byte of a memory is known after reset, so none may be taken to be zero (R232). -/
theorem State.read_reset_mem (sp : Space) (i : Nat) : (State.reset.mem sp).read i = none := by
  rw [State.reset_mem, Memory.read_nil]

/-- Settles O11, along the rows of R231: the decoder's are `decoderCleared_resetWith`, the memories'
`State.read_reset_mem`, and every other one is a field of `State.resetWith`. -/
theorem resetValues : Obligations.ResetValues := by
  have decoder : decoderCleared State.reset := decoderCleared_resetWith Config.params
  exact ⟨rfl, rfl, decoder, rfl, rfl, rfl, rfl, rfl, rfl, rfl, rfl, rfl, rfl, rfl, State.read_reset_mem⟩

end Sys2Proof.Machine
end

section
/-! The two encodings (spec/30_encoding.md). First the operation word: the fields of a word and the rows of the
opcode table. Then the wire frame. Then the statements about decoding and encoding that are settled with them.
-/

namespace Sys2Proof

/-! ## The fields of an operation word -/

theorem packWord_inj {op op' : Byte} {a a' : Half} {b b' : Byte} :
    packWord op a b = packWord op' a' b' ↔ op = op' ∧ a = a' ∧ b = b' := by
  constructor
  · intro h
    exact ⟨by simpa using congrArg opField h, by simpa using congrArg aField h,
      by simpa using congrArg bField h⟩
  · rintro ⟨rfl, rfl, rfl⟩
    rfl

/-- A word is the packing of the values that its fields have. -/
theorem packWord_of_fields {w : Word} {op : Byte} {a : Half} {b : Byte} (hop : (opField w).toNat = op.toNat)
    (ha : aField w = a) (hb : bField w = b) : packWord op a b = w := by
  rw [← BitVec.eq_of_toNat_eq hop, ← ha, ← hb, packWord_fields]

theorem packWord_and (op op' : Byte) (a a' : Half) (b b' : Byte) :
    packWord op a b &&& packWord op' a' b' = packWord (op &&& op') (a &&& a') (b &&& b') :=
  BitVec.and_append.trans (congrArg (· ++ (b &&& b')) BitVec.and_append)

/-- The two halves of the field `a` (R91). -/
theorem aField_eq_append (w : Word) : aField w = aHigh w ++ aLow w := by
  apply BitVec.eq_of_getLsbD_eq
  intro i hi
  simp only [aField, aHigh, aLow, BitVec.getLsbD_extractLsb', BitVec.getLsbD_append]
  by_cases low : i < 8
  · simp [low]
    omega
  · simp [low, show i - 8 < 8 by omega, show 16 + (i - 8) = 8 + i by omega, hi]

theorem append_eq_iff (hi hi' lo lo' : Byte) : hi ++ lo = hi' ++ lo' ↔ hi = hi' ∧ lo = lo' := by
  constructor
  · intro h
    have high := congrArg (BitVec.extractLsb' 8 8) h
    have low := congrArg (BitVec.extractLsb' 0 8) h
    simp only [BitVec.extractLsb'_append_eq_left, BitVec.extractLsb'_append_eq_right] at high low
    exact ⟨high, low⟩
  · rintro ⟨rfl, rfl⟩
    rfl

/-- A byte zero-extended to 16 bits has a high byte of zeros. -/
theorem setWidth_eq_append (b : Byte) : b.setWidth 16 = (0 : Byte) ++ b := by
  apply BitVec.eq_of_toNat_eq
  rw [BitVec.toNat_append]
  simp
  omega

/-! ## The rows of the opcode table -/

theorem ifZero_eq_ok {zero : Bool} {i j : Instr} : ifZero zero i = .ok j ↔ zero = true ∧ i = j := by
  cases zero <;> simp [ifZero]

theorem ifZero_eq_error {zero : Bool} {i : Instr} :
    (∃ r, ifZero zero i = .error r) ↔ zero = false := by
  cases zero <;> simp [ifZero]

/-- What a row selects, by its fields. The mask of every row covers the field `op`. -/
theorem selects_packWord (w : Word) (op : Byte) (a ma : Half) (b mb : Byte) :
    selects w (packWord op a b, packWord (BitVec.allOnes 8) ma mb) = true ↔
      (opField w).toNat = op.toNat ∧ aField w &&& ma = a ∧ bField w &&& mb = b := by
  rw [selects, beq_iff_eq]
  conv_lhs => rw [← packWord_fields w, packWord_and, packWord_inj]
  rw [BitVec.and_allOnes, BitVec.toNat_eq]

/-- The table of R92 by the fields of its matches and masks. -/
theorem opcodeRows_eq :
    opcodeRows =
      [(packWord 0x00 0 0, packWord (BitVec.allOnes 8) (BitVec.allOnes 16) (BitVec.allOnes 8)),
        (packWord 0x01 0 0, packWord (BitVec.allOnes 8) (BitVec.allOnes 16) 0),
        (packWord 0x02 0 0, packWord (BitVec.allOnes 8) (BitVec.allOnes 16) (BitVec.allOnes 8)),
        (packWord 0x03 0 0, packWord (BitVec.allOnes 8) (BitVec.allOnes 16) (BitVec.allOnes 8)),
        (packWord 0x04 0 0, packWord (BitVec.allOnes 8) (BitVec.allOnes 16) (BitVec.allOnes 8)),
        (packWord 0x05 0 0, packWord (BitVec.allOnes 8) (BitVec.allOnes 16) (BitVec.allOnes 8)),
        (packWord 0x06 0 0, packWord (BitVec.allOnes 8) (BitVec.allOnes 16) 0),
        (packWord 0x07 0 0, packWord (BitVec.allOnes 8) 0 0),
        (packWord 0x08 0 0, packWord (BitVec.allOnes 8) 0 (BitVec.allOnes 8)),
        (packWord 0x09 0 0, packWord (BitVec.allOnes 8) 0 (BitVec.allOnes 8)),
        (packWord 0x0A 0 0, packWord (BitVec.allOnes 8) 0 (BitVec.allOnes 8)),
        (packWord 0x0B 0 0, packWord (BitVec.allOnes 8) (BitVec.allOnes 16) 0),
        (packWord 0x0C 0 0, packWord (BitVec.allOnes 8) (BitVec.allOnes 16) (BitVec.allOnes 8)),
        (packWord 0x0D 0 0, packWord (BitVec.allOnes 8) (BitVec.allOnes 16) (BitVec.allOnes 8)),
        (packWord 0x0D 1 0, packWord (BitVec.allOnes 8) (BitVec.allOnes 16) 0),
        (packWord 0x0E 0 0, packWord (BitVec.allOnes 8) (BitVec.allOnes 8 ++ (0 : Byte)) 0),
        (packWord 0x0F 0 0, packWord (BitVec.allOnes 8) (BitVec.allOnes 16) (BitVec.allOnes 8)),
        (packWord 0x10 0 0, packWord (BitVec.allOnes 8) (BitVec.allOnes 16) (BitVec.allOnes 8))] := by
  decide

/-- The high byte of `a` is what the row of `LNK_SEND` leaves no choice of (R91). -/
theorem aField_and_high (w : Word) : aField w &&& (BitVec.allOnes 8 ++ (0 : Byte)) = 0 ↔ aHigh w = 0 := by
  have zero : (0 : Half) = (0 : Byte) ++ (0 : Byte) := by decide
  rw [aField_eq_append, zero]
  refine (Eq.congr_left BitVec.and_append).trans ?_
  rw [append_eq_iff, BitVec.and_allOnes]
  simp

/-- Settles O3, along the codes of the field `op`: the condition on the other fields is the row's. -/
theorem wordIllegalIffNoRowSelected : Obligations.WordIllegalIffNoRowSelected := by
  intro w
  rw [opcodeRows_eq]
  simp only [← Bool.not_eq_true, List.forall_mem_cons, selects_packWord, BitVec.and_allOnes, aField_and_high]
  unfold decodeWord
  split
  case h_14 hop =>
    by_cases tx : aField w = 1#16 <;> simp [hop, tx, ifZero_eq_error]
  case h_18 =>
    simp_all
  all_goals
    rename_i hop
    simp [hop, ifZero_eq_error]

/-- Settles O4: two rows that select one word agree where both masks look, and no two different rows do. -/
theorem opcodeRowsDoNotOverlap : Obligations.OpcodeRowsDoNotOverlap := by
  intro w j k hj hk
  have agree : (opcodeRows.get j).1 &&& (opcodeRows.get k).2 =
      (opcodeRows.get k).1 &&& (opcodeRows.get j).2 := by
    rw [← beq_iff_eq.1 hj, ← beq_iff_eq.1 hk, BitVec.and_assoc, BitVec.and_assoc,
      BitVec.and_comm (opcodeRows.get j).2]
  revert agree
  clear hj hk
  revert j k
  decide

/-! ## Decoding an operation word and encoding it again -/

@[simp] theorem aHigh_packWord (op : Byte) (hi lo b : Byte) : aHigh (packWord op (hi ++ lo) b) = hi := by
  have halves := aField_eq_append (packWord op (hi ++ lo) b)
  rw [aField_packWord, append_eq_iff] at halves
  exact halves.1.symm

@[simp] theorem aLow_packWord (op : Byte) (hi lo b : Byte) : aLow (packWord op (hi ++ lo) b) = lo := by
  have halves := aField_eq_append (packWord op (hi ++ lo) b)
  rw [aField_packWord, append_eq_iff] at halves
  exact halves.2.symm

theorem decodeWord_lnkSend (cmd exp : Byte) :
    decodeWord (packWord 0x0E (exp.setWidth 16) cmd) = .ok (.lnkSend cmd exp) := by
  rw [setWidth_eq_append]
  simp [decodeWord, ifZero]

/-- The word forms: every operation but the three frames is read back, with no condition on the parameters. -/
theorem decode_encode_word {p : Params} {i : Instr} {w : Word} (h : encode p i = .word w) :
    decode p (encode p i) = .ok i := by
  rw [h, decode]
  cases i
  case lnkSend cmd exp =>
    cases h
    exact decodeWord_lnkSend cmd exp
  all_goals
    simp only [encode, Encoded.word.injEq, reduceCtorEq] at h
  all_goals
    subst h
    simp [decodeWord, ifZero]

/-- A word that decodes is the operation's encoding: the conditions of R91 fix the bits that no operand holds. -/
theorem encode_of_decodeWord {w : Word} {i : Instr} (p : Params) (h : decodeWord w = .ok i) :
    encode p i = .word w ∧ i.wellFormed p = true := by
  unfold decodeWord at h
  split at h
  case h_14 hop =>
    split at h
    · rename_i tx
      cases h
      exact ⟨congrArg _ (packWord_of_fields hop (by simpa using tx) rfl), rfl⟩
    · obtain ⟨zero, rfl⟩ := ifZero_eq_ok.1 h
      simp only [Bool.and_eq_true, beq_iff_eq] at zero
      exact ⟨congrArg _ (packWord_of_fields hop zero.1 zero.2), rfl⟩
  case h_8 hop =>
    cases h
    exact ⟨congrArg _ (packWord_of_fields hop rfl rfl), rfl⟩
  case h_15 hop =>
    obtain ⟨zero, rfl⟩ := ifZero_eq_ok.1 h
    have high : aField w = (aLow w).setWidth 16 := by
      rw [aField_eq_append, beq_iff_eq.1 zero, setWidth_eq_append]
    exact ⟨congrArg _ (packWord_of_fields hop high rfl), rfl⟩
  case h_18 => cases h
  case h_2 hop | h_7 hop | h_12 hop =>
    obtain ⟨zero, rfl⟩ := ifZero_eq_ok.1 h
    exact ⟨congrArg _ (packWord_of_fields hop (beq_iff_eq.1 zero) rfl), rfl⟩
  case h_9 hop | h_10 hop | h_11 hop =>
    obtain ⟨zero, rfl⟩ := ifZero_eq_ok.1 h
    exact ⟨congrArg _ (packWord_of_fields hop rfl (beq_iff_eq.1 zero)), rfl⟩
  all_goals
    rename_i hop
    obtain ⟨zero, rfl⟩ := ifZero_eq_ok.1 h
    simp only [Bool.and_eq_true, beq_iff_eq] at zero
    exact ⟨congrArg _ (packWord_of_fields hop zero.1 zero.2), rfl⟩

/-! ## The wire frame -/

@[simp] theorem lengthHigh_lengthOf (hi lo : Byte) : lengthHigh (lengthOf hi lo) = hi :=
  (append_eq_iff _ _ _ _).1 (lengthOf_high_low (lengthOf hi lo)) |>.1

@[simp] theorem lengthLow_lengthOf (hi lo : Byte) : lengthLow (lengthOf hi lo) = lo :=
  (append_eq_iff _ _ _ _).1 (lengthOf_high_low (lengthOf hi lo)) |>.2

@[simp] theorem length_paddingOf (payload : List Byte) : (paddingOf payload).length = payload.length % 2 := by
  unfold paddingOf
  split
  · rename_i odd
    exact odd.symm
  · simp
    omega

theorem paddingOf_of_odd {payload : List Byte} (odd : payload.length % 2 = 1) : paddingOf payload = [0x00] :=
  if_pos odd

theorem paddingOf_of_even {payload : List Byte} (even : payload.length % 2 = 0) : paddingOf payload = [] :=
  if_neg (by omega)

theorem length_frameBody (p : Params) (dest src cmd : Byte) (payload : List Byte) :
    (frameBody p dest src cmd payload).length = 6 + payload.length + payload.length % 2 := by
  simp [frameBody]
  omega

theorem payloadFits_iff (p : Params) (payload : List Byte) :
    payloadFits p payload = true ↔ 1 ≤ payload.length ∧ payload.length ≤ p.maxPayload := by
  simp [payloadFits]

theorem checkPair_eq_ok {p : Params} {dest src cmd even odd : Byte} {payload : List Byte} {i : Instr} :
    checkPair p dest src cmd payload even odd = .ok i ↔
      even = (parityXor (frameBody p dest src cmd payload)).1 ∧
        odd = (parityXor (frameBody p dest src cmd payload)).2 ∧ classify p dest src cmd payload = .ok i := by
  unfold checkPair
  split
  · rename_i differs
    simp [differs]
  · split
    · rename_i differs
      simp [differs]
    · simp_all

/-- What a frame decodes to is for its class alone to say (R88): marker, length, padding and checksums are
those that the decoder looks for. -/
theorem decodeFrame_frameBytes {p : Params} (dest src cmd : Byte) {payload : List Byte}
    (bound : p.maxPayload ≤ 65535) (fits : payloadFits p payload = true) :
    decodeFrame p (frameBytes p dest src cmd payload) = classify p dest src cmd payload := by
  obtain ⟨nonempty, short⟩ := (payloadFits_iff p payload).1 fits
  have len : (BitVec.ofNat 16 payload.length).toNat = payload.length := by
    rw [BitVec.toNat_ofNat]
    omega
  have sums : ∀ e o, e = (parityXor (frameBody p dest src cmd payload)).1 →
      o = (parityXor (frameBody p dest src cmd payload)).2 →
      checkPair p dest src cmd payload e o = classify p dest src cmd payload := by
    rintro e o rfl rfl
    simp [checkPair]
  generalize he : (parityXor (frameBody p dest src cmd payload)).1 = e at sums
  generalize ho : (parityXor (frameBody p dest src cmd payload)).2 = o at sums
  have shape : frameBytes p dest src cmd payload =
      p.frameMarker :: dest :: src :: cmd :: lengthHigh (BitVec.ofNat 16 payload.length) ::
        lengthLow (BitVec.ofNat 16 payload.length) :: (payload ++ (paddingOf payload ++ [e, o])) := by
    rw [frameBytes, he, ho]
    simp [frameBody]
  have range : ¬(payload.length = 0 ∨ payload.length > p.maxPayload) := by omega
  have total : (payload ++ (paddingOf payload ++ [e, o])).length =
      payload.length + payload.length % 2 + 2 := by
    simp
    omega
  rw [shape]
  simp only [decodeFrame, lengthOf_high_low, len, ne_eq, not_true_eq_false, if_false, if_neg range, total,
    List.drop_left, List.take_left]
  rcases Nat.mod_two_eq_zero_or_one payload.length with even | odd
  · simp only [paddingOf_of_even even, List.nil_append]
    exact sums e o rfl rfl
  · simp only [paddingOf_of_odd odd, List.cons_append, List.nil_append, not_true_eq_false, if_false]
    exact sums e o rfl rfl

/-- A frame put together again from the parts that its length field cuts it into. -/
theorem frame_of_parts {p : Params} {dest src cmd hi lo even odd : Byte} {rest : List Byte} {i : Instr}
    (enough : (lengthOf hi lo).toNat ≤ rest.length)
    (behind : rest.drop (lengthOf hi lo).toNat =
      paddingOf (rest.take (lengthOf hi lo).toNat) ++ [even, odd])
    (checked : checkPair p dest src cmd (rest.take (lengthOf hi lo).toNat) even odd = .ok i) :
    p.frameMarker :: dest :: src :: cmd :: hi :: lo :: rest =
        frameBytes p dest src cmd (rest.take (lengthOf hi lo).toNat) ∧
      classify p dest src cmd (rest.take (lengthOf hi lo).toNat) = .ok i := by
  obtain ⟨heven, hodd, hclass⟩ := checkPair_eq_ok.1 checked
  refine ⟨?_, hclass⟩
  have count : (rest.take (lengthOf hi lo).toNat).length = (lengthOf hi lo).toNat := by
    simpa using enough
  have parts := List.take_append_drop (lengthOf hi lo).toNat rest
  rw [behind, heven, hodd] at parts
  generalize rest.take (lengthOf hi lo).toNat = payload at *
  rw [frameBytes, ← parts]
  simp [frameBody, count]

/-- What decodes is a frame whose class gives the instruction: no byte of it is free. -/
theorem frameBytes_of_decodeFrame {p : Params} {bs : List Byte} {i : Instr} (h : decodeFrame p bs = .ok i) :
    ∃ dest src cmd payload, bs = frameBytes p dest src cmd payload ∧ payloadFits p payload = true ∧
      classify p dest src cmd payload = .ok i := by
  match bs with
  | marker :: dest :: src :: cmd :: hi :: lo :: rest =>
    simp only [decodeFrame] at h
    split at h
    · cases h
    rename_i marked
    split at h
    · cases h
    rename_i range
    split at h
    · cases h
    rename_i total
    rw [ne_eq, not_not] at marked total
    subst marked
    have count : (rest.take (lengthOf hi lo).toNat).length = (lengthOf hi lo).toNat := by
      rw [List.length_take]
      omega
    have fits : payloadFits p (rest.take (lengthOf hi lo).toNat) = true := by
      rw [payloadFits_iff, count]
      omega
    have behind : (rest.drop (lengthOf hi lo).toNat).length = (lengthOf hi lo).toNat % 2 + 2 := by
      rw [List.length_drop]
      omega
    suffices parts : ∃ even odd, rest.drop (lengthOf hi lo).toNat =
          paddingOf (rest.take (lengthOf hi lo).toNat) ++ [even, odd] ∧
        checkPair p dest src cmd (rest.take (lengthOf hi lo).toNat) even odd = .ok i by
      obtain ⟨even, odd, behind, checked⟩ := parts
      obtain ⟨frame, classified⟩ := frame_of_parts (by omega) behind checked
      exact ⟨dest, src, cmd, _, frame, fits, classified⟩
    split at h
    · rename_i even odd hdrop
      rw [hdrop] at behind
      have unpadded : (rest.take (lengthOf hi lo).toNat).length % 2 = 0 := by simp at behind; omega
      exact ⟨even, odd, by rw [hdrop, paddingOf_of_even unpadded]; rfl, h⟩
    · rename_i pad even odd hdrop
      rw [hdrop] at behind
      have padded : (rest.take (lengthOf hi lo).toNat).length % 2 = 1 := by simp at behind; omega
      split at h
      · cases h
      rename_i zero
      rw [ne_eq, not_not] at zero
      exact ⟨even, odd, by rw [hdrop, paddingOf_of_odd padded, zero]; rfl, h⟩
    · cases h

/-! ## The classes of frames -/

/-- The second payload byte of an acknowledgement has a high nibble of zeros (R87). -/
theorem setWidth_setWidth_of_high_zero {b : Byte} (h : b.extractLsb' 4 4 = 0) :
    (b.setWidth 4).setWidth 8 = b := by
  revert b
  decide

theorem high_setWidth_nibble (n : Nibble) : (n.setWidth 8).extractLsb' 4 4 = 0 := by
  revert n
  decide

theorem setWidth_setWidth_nibble (n : Nibble) : (n.setWidth 8).setWidth 4 = n := by
  revert n
  decide

/-- An instruction that a frame is classified as is encoded as that frame. -/
theorem encode_of_classify {p : Params} {dest src cmd : Byte} {payload : List Byte} {i : Instr}
    (fits : payloadFits p payload = true) (h : classify p dest src cmd payload = .ok i) :
    encode p i = .frame (frameBytes p dest src cmd payload) ∧ i.wellFormed p = true := by
  unfold classify at h
  split at h
  · rename_i ack
    split at h
    · rename_i acked s
      split at h
      · rename_i high
        cases h
        obtain ⟨-, two⟩ := (payloadFits_iff p _).1 fits
        refine ⟨?_, decide_eq_true two⟩
        simp only [encode, ackPayload, setWidth_setWidth_of_high_zero high, ack]
      · cases h
    · cases h
  · rename_i notAck
    split at h
    · rename_i done
      cases h
      exact ⟨by rw [encode, done], fits⟩
    · rename_i notDone
      cases h
      exact ⟨rfl, by simp [Instr.wellFormed, dataCommand, notAck, notDone, fits]⟩

theorem classify_ack (p : Params) (dest src acked : Byte) (seq : Nibble) :
    classify p dest src p.ackCmd (ackPayload acked seq) = .ok (.wireAck dest src acked seq) := by
  simp only [classify, ackPayload, if_true, high_setWidth_nibble, setWidth_setWidth_nibble]

theorem classify_pwronDone {p : Params} (differ : p.ackCmd ≠ p.pwronDoneCmd) (dest src : Byte)
    (payload : List Byte) :
    classify p dest src p.pwronDoneCmd payload = .ok (.wirePwronDone dest src payload) := by
  unfold classify
  rw [if_neg differ.symm, if_pos rfl]

theorem classify_data {p : Params} {cmd : Byte} (data : dataCommand p cmd = true) (dest src : Byte)
    (payload : List Byte) : classify p dest src cmd payload = .ok (.wireData dest src cmd payload) := by
  simp only [dataCommand, Bool.and_eq_true, decide_eq_true_eq] at data
  unfold classify
  rw [if_neg data.1, if_neg data.2]

/-! ## Decoding and encoding undo each other -/

/-- Settles O1: words by `decode_encode_word`, each kind of frame by its class. -/
theorem decodeOfEncodeIsIdentity : Obligations.DecodeOfEncodeIsIdentity := by
  intro p i ok wf
  obtain ⟨-, -, bound, -, -, differ⟩ := Machine.params_of_ok ok
  cases i
  case wireAck dest src acked seq =>
    have fits : payloadFits p (ackPayload acked seq) = true :=
      (payloadFits_iff _ _).2 ⟨Nat.le_add_left 1 1, of_decide_eq_true wf⟩
    exact (decodeFrame_frameBytes dest src _ bound fits).trans (classify_ack p dest src acked seq)
  case wirePwronDone dest src payload =>
    exact (decodeFrame_frameBytes dest src _ bound wf).trans (classify_pwronDone differ dest src payload)
  case wireData dest src cmd payload =>
    obtain ⟨data, fits⟩ := (Bool.and_eq_true _ _).mp wf
    exact (decodeFrame_frameBytes dest src cmd bound fits).trans (classify_data data dest src payload)
  all_goals exact decode_encode_word rfl

/-- Settles O2: a word by its fields, a frame by the parts that its length cuts it into. -/
theorem encodeOfDecodeIsIdentity : Obligations.EncodeOfDecodeIsIdentity := by
  intro p e i h
  cases e with
  | word w => exact encode_of_decodeWord p h
  | frame bytes =>
    obtain ⟨dest, src, cmd, payload, rfl, fits, classified⟩ := frameBytes_of_decodeFrame h
    exact encode_of_classify fits classified

/-! ## Written-out words, lengths and checksums -/

/-- Settles O5: every part is an evaluation of the tables at one word, frame or status. -/
theorem writtenOutWordsDecode : Obligations.WrittenOutWordsDecode := by
  refine ⟨?rows, ?illegal, ?frame, ?status⟩
  case rows => decide
  case illegal => decide
  case frame => rfl
  case status => decide

/-- Settles O6, by `length_frameBody` and the two checksums. -/
theorem frameLengthIsEven : Obligations.FrameLengthIsEven := by
  intro p dest src cmd payload
  have len : (frameBytes p dest src cmd payload).length = 6 + payload.length + payload.length % 2 + 2 := by
    rw [frameBytes, List.length_append, length_frameBody]
    rfl
  exact ⟨len, by omega⟩

/-- The XOR of the bytes at the positions whose remainder by 2 is `r`. -/
def xorAt (r : Nat) (bs : List Byte) : Byte :=
  (((List.range bs.length).filter fun k => k % 2 == r).map fun k => bs.getD k 0).foldl
    (fun a b => a ^^^ b) 0

theorem foldl_xor (a : Byte) (bs : List Byte) :
    bs.foldl (fun x y => x ^^^ y) a = a ^^^ bs.foldl (fun x y => x ^^^ y) 0 := by
  induction bs generalizing a with
  | nil => simp
  | cons b bs ih =>
    rw [List.foldl_cons, List.foldl_cons, ih (a ^^^ b), ih (0 ^^^ b)]
    simp [BitVec.xor_assoc]

/-- In front of a list a byte has position 0, and every other position changes its parity. -/
theorem xorAt_cons (b : Byte) (bs : List Byte) :
    xorAt 0 (b :: bs) = b ^^^ xorAt 1 bs ∧ xorAt 1 (b :: bs) = xorAt 0 bs := by
  have shift : ∀ r r' : Nat, (∀ k, ((k + 1) % 2 == r) = (k % 2 == r')) →
      (((List.range bs.length).map Nat.succ).filter fun k => k % 2 == r).map (fun k => (b :: bs).getD k 0) =
        ((List.range bs.length).filter fun k => k % 2 == r').map fun k => bs.getD k 0 := by
    intro r r' parity
    rw [List.filter_map, List.map_map]
    congr 1
    apply List.filter_congr
    intro k _
    exact parity k
  have odd : ∀ k, ((k + 1) % 2 == 0) = (k % 2 == 1) := by
    intro k
    rcases Nat.mod_two_eq_zero_or_one k with h | h <;> simp [Nat.add_mod, h]
  have even : ∀ k, ((k + 1) % 2 == 1) = (k % 2 == 0) := by
    intro k
    rcases Nat.mod_two_eq_zero_or_one k with h | h <;> simp [Nat.add_mod, h]
  constructor
  · rw [xorAt, List.length_cons, List.range_succ_eq_map, List.filter_cons_of_pos (by rfl), List.map_cons,
      shift 0 1 odd, List.foldl_cons, foldl_xor]
    simp [xorAt]
  · rw [xorAt, List.length_cons, List.range_succ_eq_map, List.filter_cons_of_neg (by decide),
      shift 1 0 even]
    rfl

theorem parityXor_eq_xorAt (bs : List Byte) : parityXor bs = (xorAt 0 bs, xorAt 1 bs) := by
  induction bs with
  | nil => rfl
  | cons b bs ih =>
    obtain ⟨even, odd⟩ := xorAt_cons b bs
    rw [parityXor, ih, even, odd]

/-- Settles O7, by induction on the bytes: `xorAt_cons` is the swap in `parityXor`. -/
theorem checksumsAreParityXors : Obligations.ChecksumsAreParityXors := by
  intro bs
  rw [parityXor_eq_xorAt]
  exact ⟨rfl, rfl⟩

/-- Settles O8: the model's encoder law, stated for all parameters, commands and payloads. -/
theorem emissionIsTheWireFrame : Obligations.EmissionIsTheWireFrame :=
  Machine.emission_eq_frameBytes

end Sys2Proof
end

section
/-! The ring as a bounded queue (spec/40_ring_buffer.md). First the arithmetic of its indices, then what a write
and a read make of the bytes queued, then the statements that are settled with it. -/

namespace Sys2Proof.Machine

/-! ## The arithmetic of the indices -/

theorem mod_of_lt_double {x c : Nat} (h : x < 2 * c) : x % c = if x < c then x else x - c := by
  split
  · exact Nat.mod_eq_of_lt ‹_›
  · rw [Nat.mod_eq_sub_mod (by omega), Nat.mod_eq_of_lt (by omega)]

/-- The slot that holds the `k`-th queued byte, the oldest being byte 0 (R22). -/
def slot (s : State) (k : Nat) : Nat := (s.rbRd + k) % s.cfg.rbCap

theorem nextIndex_lt {s : State} (ok : ringOk s) (i : Nat) : nextIndex s.cfg i < s.cfg.rbCap :=
  Nat.mod_lt _ (by obtain ⟨-, rd, -⟩ := ok; omega)

theorem nextIndex_eq {p : Params} {i : Nat} (h : i < p.rbCap) :
    nextIndex p i = if i + 1 < p.rbCap then i + 1 else i + 1 - p.rbCap :=
  mod_of_lt_double (by omega)

theorem ringCount_eq {s : State} (ok : ringOk s) :
    ringCount s = if s.rbRd ≤ s.rbWr then s.rbWr - s.rbRd else s.rbWr + s.cfg.rbCap - s.rbRd := by
  obtain ⟨-, rd, wr⟩ := ok
  rw [ringCount, mod_of_lt_double (by omega)]
  split <;> split <;> omega

theorem slot_eq {s : State} (ok : ringOk s) {k : Nat} (h : k < s.cfg.rbCap) :
    slot s k = if s.rbRd + k < s.cfg.rbCap then s.rbRd + k else s.rbRd + k - s.cfg.rbCap := by
  obtain ⟨-, rd, -⟩ := ok
  exact mod_of_lt_double (by omega)

theorem ringCount_lt {s : State} (ok : ringOk s) : ringCount s < s.cfg.rbCap :=
  Nat.mod_lt _ (by obtain ⟨-, rd, -⟩ := ok; omega)

/-- Behind the queued bytes comes the slot that is written next. -/
theorem slot_ringCount {s : State} (ok : ringOk s) : slot s (ringCount s) = s.rbWr := by
  have count := ringCount_eq ok
  rw [slot_eq ok (ringCount_lt ok)]
  obtain ⟨-, rd, wr⟩ := ok
  split at count <;> split <;> omega

theorem slot_ne_rbWr {s : State} (ok : ringOk s) {k : Nat} (h : k < ringCount s) : slot s k ≠ s.rbWr := by
  have count := ringCount_eq ok
  have room := ringCount_lt ok
  rw [slot_eq ok (by omega)]
  obtain ⟨-, rd, wr⟩ := ok
  split at count <;> split <;> omega

/-- "full when advancing `write` would equal `read`" is `RB_CAP - 1` bytes held (R21, R114). -/
theorem ringFull_iff_count {s : State} (ok : ringOk s) :
    ringFull s = true ↔ ringCount s + 1 = s.cfg.rbCap := by
  have count := ringCount_eq ok
  obtain ⟨-, rd, wr⟩ := ok
  rw [ringFull, beq_iff_eq, nextIndex_eq wr]
  split at count <;> split <;> omega

theorem ringEmpty_iff_count {s : State} (ok : ringOk s) : ringEmpty s = true ↔ ringCount s = 0 := by
  rw [ringEmpty_iff, ringCount_eq ok]
  obtain ⟨-, rd, wr⟩ := ok
  split <;> omega

@[simp] theorem ringPush_cfg (b : Byte) (s : State) : (ringPush b s).cfg = s.cfg := rfl
@[simp] theorem ringPush_rbRd (b : Byte) (s : State) : (ringPush b s).rbRd = s.rbRd := rfl
@[simp] theorem ringPush_rbWr (b : Byte) (s : State) :
    (ringPush b s).rbWr = nextIndex s.cfg s.rbWr := rfl

theorem ringOk_ringPush {s : State} (ok : ringOk s) (b : Byte) : ringOk (ringPush b s) := by
  obtain ⟨params, rd, -⟩ := id ok
  exact ⟨params, rd, nextIndex_lt ok _⟩

theorem ringOk_ringPop {s : State} (ok : ringOk s) : ringOk (ringPop s) := by
  obtain ⟨params, -, wr⟩ := id ok
  exact ⟨params, nextIndex_lt ok _, wr⟩

theorem ringCount_ringPush {s : State} (ok : ringOk s) (room : ringFull s = false) (b : Byte) :
    ringCount (ringPush b s) = ringCount s + 1 := by
  have full := ringFull_iff_count ok
  have before := ringCount_eq ok
  have after := ringCount_eq (ringOk_ringPush ok b)
  obtain ⟨-, rd, wr⟩ := ok
  simp only [room, Bool.false_eq_true, false_iff] at full
  simp only [ringPush_cfg, ringPush_rbRd, ringPush_rbWr, nextIndex_eq wr] at after
  split at before <;> split at after <;> split at after <;> omega

theorem ringCount_ringPop {s : State} (ok : ringOk s) (byte : ringEmpty s = false) :
    ringCount s = ringCount (ringPop s) + 1 := by
  have empty := ringEmpty_iff_count ok
  have before := ringCount_eq ok
  have after := ringCount_eq (ringOk_ringPop ok)
  obtain ⟨-, rd, wr⟩ := ok
  simp only [byte, Bool.false_eq_true, false_iff] at empty
  simp only [ringPop_rbRd, ringPop_rbWr, ringPop_cfg, nextIndex_eq rd] at after
  split at before <;> split at after <;> split at after <;> omega

theorem slot_ringPop (s : State) (k : Nat) : slot (ringPop s) k = slot s (k + 1) := by
  simp only [slot, ringPop_rbRd, ringPop_cfg, nextIndex, Nat.mod_add_mod]
  congr 1
  omega

/-! ## The bytes queued -/

theorem queued_eq (s : State) :
    queued s = (List.range (ringCount s)).map fun k => memRead .rb (slot s k) s := rfl

@[simp] theorem length_queued (s : State) : (queued s).length = ringCount s := by simp [queued]

/-- The bytes queued depend on the ring alone. -/
theorem queued_congr {s t : State} (cfg : t.cfg = s.cfg) (rd : t.rbRd = s.rbRd) (wr : t.rbWr = s.rbWr)
    (storage : ∀ i, memRead .rb i t = memRead .rb i s) : queued t = queued s := by
  simp only [queued, ringCount, cfg, rd, wr, storage]

theorem queued_ringPush {s : State} (ok : ringOk s) (room : ringFull s = false) (b : Byte) :
    queued (ringPush b s) = queued s ++ [b] := by
  have before : ∀ k ∈ List.range (ringCount s),
      memRead .rb (slot s k) (ringPush b s) = memRead .rb (slot s k) s := by
    intro k hk
    rw [memRead_ringPush, if_neg fun written => slot_ne_rbWr ok (List.mem_range.1 hk) written.2]
  have last : memRead .rb (slot s (ringCount s)) (ringPush b s) = b := by
    rw [memRead_ringPush, slot_ringCount ok, if_pos ⟨rfl, rfl⟩]
  have slots : ∀ k, slot (ringPush b s) k = slot s k := fun _ => rfl
  simp only [queued_eq, ringCount_ringPush ok room, slots, List.range_succ, List.map_append, List.map_cons,
    List.map_nil, last, List.map_congr_left before]

theorem queued_ringPop {s : State} (ok : ringOk s) (byte : ringEmpty s = false) :
    queued s = ringFront s :: queued (ringPop s) := by
  have front : slot s 0 = s.rbRd := Nat.mod_eq_of_lt ok.2.1
  rw [queued_eq, ringCount_ringPop ok byte, List.range_succ_eq_map, List.map_cons, front, List.map_map]
  refine congrArg (ringFront s :: ·) (List.map_congr_left fun k _ => ?_)
  exact congrArg (memRead .rb · s) (slot_ringPop s k).symm

theorem queued_answer (p : Port) (st : Status) (v : Half) (s : State) :
    queued (answer p st v s) = queued s :=
  queued_congr rfl rfl rfl fun _ => rfl

theorem queued_eq_nil_iff (s : State) : queued s = [] ↔ ringCount s = 0 := by
  rw [← List.length_eq_zero_iff, length_queued]

/-! ## One byte and several bytes presented by the producer -/

theorem ringOk_rbWriteOp {s : State} (ok : ringOk s) (b : Byte) : ringOk (rbWriteOp b s) := by
  rcases rbWriteOp_cases b s with ⟨-, h⟩ | ⟨-, h⟩ <;> rw [h]
  · exact ok
  · exact ringOk_ringPush ok b

/-- A write appends its byte unless the ring is full (R111, R115). -/
theorem queued_rbWriteOp {s : State} (ok : ringOk s) (b : Byte) :
    queued (rbWriteOp b s) = queued s ++ if ringFull s then [] else [b] := by
  rcases rbWriteOp_cases b s with ⟨full, h⟩ | ⟨room, h⟩ <;> rw [h, queued_answer]
  · simp [full]
  · rw [queued_ringPush ok room, room]
    rfl

/-- What arrives is queued as far as there is room (R61). -/
theorem queued_feed (bs : List Byte) {s : State} (ok : ringOk s) :
    queued (feed bs s) = (queued s ++ bs).take (s.cfg.rbCap - 1) := by
  induction bs generalizing s with
  | nil =>
    have := ringCount_lt ok
    rw [feed_nil, List.append_nil, List.take_of_length_le (by rw [length_queued]; omega)]
  | cons b bs ih =>
    have cfg : (rbWriteOp b s).cfg = s.cfg := by
      obtain ⟨_, _, _, h⟩ := rbWriteOp_frame b s
      rw [h]
    have full := ringFull_iff_count ok
    rw [feed_cons, ih (ringOk_rbWriteOp ok b), cfg, queued_rbWriteOp ok]
    split
    · rename_i isFull
      have held : (queued s).length = s.cfg.rbCap - 1 := by
        rw [length_queued]
        have := full.1 isFull
        omega
      rw [List.append_nil, ← held, List.take_left, List.take_left]
    · rw [List.append_assoc]
      rfl

/-- A result word that the producer's port can answer to a byte: `OK` or `FULL` (R111). -/
abbrev byteAnswer (r : Result) : Prop := r.port = .producer ∧ (r.word = 0x00000000 ∨ r.word = 0x01000000)

theorem rbWriteOp_results (b : Byte) (s : State) :
    ∃ r, (rbWriteOp b s).results = s.results ++ [r] ∧ byteAnswer r := by
  rcases rbWriteOp_cases b s with ⟨-, h⟩ | ⟨-, h⟩ <;> rw [h]
  · exact ⟨_, rfl, rfl, .inr rfl⟩
  · exact ⟨_, rfl, rfl, .inl rfl⟩

theorem feed_results (bs : List Byte) (s : State) :
    ∃ rs, (feed bs s).results = s.results ++ rs ∧ rs.length = bs.length ∧ ∀ r ∈ rs, byteAnswer r := by
  induction bs generalizing s with
  | nil => exact ⟨[], by simp [feed_nil]⟩
  | cons b bs ih =>
    obtain ⟨r, first, hr⟩ := rbWriteOp_results b s
    obtain ⟨rs, others, length, hrs⟩ := ih (rbWriteOp b s)
    refine ⟨r :: rs, ?_, congrArg (· + 1) length, List.forall_mem_cons.2 ⟨hr, hrs⟩⟩
    rw [feed_cons, others, first, List.append_assoc]
    rfl

/-- What the producer can touch: behind the read index, the storage, the write index and the results. -/
abbrev onlyQueued (s t : State) : Prop :=
  t.rbRd = s.rbRd ∧ sameDecoder s t ∧ sameSession s t ∧ sameTimer s t ∧ sameTransmit s t ∧
    sameInputs s t ∧ ∀ sp i, sp ≠ .rb → memRead sp i t = memRead sp i s

theorem onlyQueued_update (s : State) (m : Memory) (wr : Nat) (rs : List Result) :
    onlyQueued s { s with rb := m, rbWr := wr, results := rs } := by
  refine ⟨rfl, ⟨rfl, rfl, rfl, rfl, rfl, rfl, rfl, rfl⟩, ⟨rfl, rfl, rfl, rfl⟩, ⟨rfl, rfl, rfl⟩,
    ⟨rfl, rfl, rfl, rfl⟩, ⟨rfl, rfl, rfl⟩, fun sp i other => ?_⟩
  apply memRead_congr
  · cases sp
    case rb => exact absurd rfl other
    all_goals rfl
  · rfl

theorem onlyQueued_feed (bs : List Byte) (s : State) : onlyQueued s (feed bs s) := by
  obtain ⟨m, wr, rs, h⟩ := feed_frame bs s
  rw [h]
  exact onlyQueued_update s m wr (s.results ++ rs)

/-! ## The refinement -/

theorem ringFull_eq_false_iff {s : State} (ok : ringOk s) :
    ringFull s = false ↔ ringCount s < s.cfg.rbCap - 1 := by
  rw [← Bool.not_eq_true, ringFull_iff_count ok]
  have := ringCount_lt ok
  omega

theorem queued_exec_rbWrite {s t : State} {b : Byte} (ok : ringOk s) (h : exec (.rbWrite b) s = .next t) :
    ((queued s).length = s.cfg.rbCap - 1 → queued t = queued s ∧ answered .producer .full 0 s t) ∧
      ((queued s).length < s.cfg.rbCap - 1 →
        queued t = queued s ++ [b] ∧ answered .producer .ok 0 s t) := by
  rw [exec_rbWrite] at h
  cases h
  rw [length_queued]
  constructor
  · intro held
    have full : ringFull s = true := (ringFull_iff_count ok).2 (by have := ringCount_lt ok; omega)
    rw [rbWriteOp_of_full b full, queued_answer]
    exact ⟨rfl, rfl⟩
  · intro held
    have room := (ringFull_eq_false_iff ok).2 held
    rw [rbWriteOp_of_not_full b (by simp [room]), queued_answer, queued_ringPush ok room]
    exact ⟨rfl, rfl⟩

theorem queued_exec_rbRead {s t : State} (ok : ringOk s) (h : exec .rbRead s = .next t) :
    (queued s = [] → queued t = [] ∧ answered .host .empty 0 s t) ∧
      ∀ b q, queued s = b :: q → queued t = q ∧ answered .host .ok (b.setWidth 16) s t := by
  by_cases empty : ringEmpty s = true
  · have none : queued s = [] := (queued_eq_nil_iff s).2 ((ringEmpty_iff_count ok).1 empty)
    rw [exec_rbRead_of_empty empty] at h
    cases h
    refine ⟨fun _ => ⟨?_, rfl⟩, fun b q some => absurd (none.symm.trans some) (by simp)⟩
    rw [queued_answer, none]
  · have oldest := queued_ringPop ok (Bool.eq_false_iff.2 empty)
    rw [exec_rbRead_of_not_empty empty] at h
    cases h
    refine ⟨fun none => absurd (oldest.symm.trans none) (by simp), fun b q some => ?_⟩
    obtain ⟨rfl, rfl⟩ := List.cons.inj (oldest.symm.trans some)
    exact ⟨queued_answer _ _ _ _, rfl⟩

/-- Settles O28: `queued_ringPush` and `queued_ringPop` say what the two ends of the queue are. -/
theorem ringRefinesBoundedQueue : Obligations.RingRefinesBoundedQueue := by
  intro s ok
  refine ⟨?_, fun b t h => queued_exec_rbWrite ok h, fun t h => queued_exec_rbRead ok h, fun t h => ?_⟩
  · rw [length_queued]
    exact ringCount_lt ok
  · rw [exec_rbClear] at h
    cases h
    rw [queued_answer, queued_eq_nil_iff]
    simp [ringCount]

/-- A wire frame of the table arrives as its bytes (R61, R96). -/
theorem exec_of_encode_frame {i : Instr} {bs : List Byte} {s : State} (h : encode s.cfg i = .frame bs) :
    exec i s = .next (feed bs s) := by
  cases i <;> simp only [encode, Encoded.frame.injEq, reduceCtorEq] at h
  all_goals
    subst h
    rfl

/-- Settles O29, by the encoding that each kind of frame has. -/
theorem arrivingFramesAreQueued : Obligations.ArrivingFramesAreQueued := by
  intro s dest src acked cmd seq payload ok i bs kind
  have encoded : encode s.cfg i = .frame bs := by
    rcases kind with ⟨rfl, rfl⟩ | ⟨rfl, rfl⟩ | ⟨rfl, rfl⟩ <;> rfl
  obtain ⟨rd, decoder, session, timer, transmit, inputs, others⟩ := onlyQueued_feed bs s
  exact ⟨_, exec_of_encode_frame encoded, queued_feed bs ok, rd, decoder, session, timer, transmit, inputs,
    others, feed_results bs s⟩

end Sys2Proof.Machine
end

section
/-! What an operation can do, as a sequence of effects, each of which a claim about all operations has to look at
once; and that every instruction and every step is such a sequence. -/

namespace Sys2Proof.Machine

/-! ## The effects -/

/-- The size of a byte array (R60). -/
def capacity (p : Params) : Space → Nat
  | .rb => p.rbCap
  | .rxp => p.maxPayload
  | .txp => p.maxPayload
  | .ackb => 2

/-- The arrays that the encoder reads and the host or `SendAck` fills. -/
def feedsEncoder : Space → Bool
  | .txp => true
  | .ackb => true
  | _ => false

/-- One effect that an operation can have on the state. -/
inductive Effect : State → State → Prop where
  /-- a result word (R93) -/
  | answered (p : Port) (st : Status) (v : Half) (s : State) : Effect s (answer p st v s)
  /-- a byte queued (R111) -/
  | pushed (b : Byte) (s : State) (room : ringFull s = false) : Effect s (ringPush b s)
  /-- a byte read by the host (R112) -/
  | popped (s : State) (byte : ringEmpty s = false) : Effect s (ringPop s)
  /-- the ring emptied (R113) -/
  | emptied (s : State) : Effect s { s with rbRd := 0, rbWr := 0 }
  /-- a byte taken by the decoder (R121) -/
  | decoded (s : State) (run : s.decState.terminal = false) (byte : ringEmpty s = false) :
    Effect s (renewRx (decConsume (ringFront s) (ringPop s)))
  /-- the timer's flag set (R168) -/
  | expired (s : State) (armed : s.tmrArmed = true) : Effect s { s with tmrFired := true }
  /-- the inputs still to come changed, one of them having been taken (R70) -/
  | awaited (rs : List Request) (s : State) : Effect s { s with requests := rs }
  /-- the decoder reset (R134) -/
  | cleared (s : State) : Effect s (decReset s)
  /-- a byte written to a buffer of the transmit side (R146, R192) -/
  | stored (sp : Space) (i : Nat) (b : Byte) (s : State) (transmit : feedsEncoder sp = true)
      (inside : i < capacity s.cfg sp) : Effect s (memWrite sp i b s)
  /-- the length of the next frame set (R193) -/
  | lengthSet (len : Half) (s : State) (fits : len.toNat ≤ s.cfg.maxPayload) : Effect s { s with txLen := len }
  /-- a frame sent (R140 to R144) -/
  | sent (cmd : Byte) (sp : Space) (n : Nat) (s : State) (transmit : feedsEncoder sp = true)
      (fits : n ≤ capacity s.cfg sp) (content : cmd = s.cfg.ackCmd ∨ n ≠ 0) :
    Effect s (encodeAndSend cmd sp n s)
  /-- the commands of an exchange recorded (R157, R158) -/
  | issued (pending expected : Byte) (s : State) :
    Effect s { s with lnkPending := pending, lnkExpected := expected }
  /-- a wait begun, with the timer (R157, R158, R164) -/
  | waitBegun (st : LnkState) (s : State) (waits : st.waiting = true) :
    Effect s { timerStart s with lnkState := st }
  /-- a wait ended, with the timer (R160, R163, R165, R167) -/
  | waitEnded (st : LnkState) (s : State) (noError : st ≠ .error) : Effect s { timerStop s with lnkState := st }
  /-- the error entry (R206) -/
  | failed (kind : LnkErr) (s : State) (cause : kind ≠ .none) : Effect s (enterError kind s)
  /-- the session reinitialised (R156) -/
  | reinitialised (s : State) : Effect s (sessionInit s)

/-- A sequence of effects. -/
def Effects : State → State → Prop := Relation.ReflTransGen Effect

theorem Effects.refl (s : State) : Effects s s := Relation.ReflTransGen.refl

theorem Effects.one {s t : State} (e : Effect s t) : Effects s t := Relation.ReflTransGen.single e

theorem Effects.trans {s t u : State} (es : Effects s t) (es' : Effects t u) : Effects s u :=
  Relation.ReflTransGen.trans es es'

theorem Effects.first {s t u : State} (e : Effect s t) (es : Effects t u) : Effects s u := (Effects.one e).trans es

theorem Effects.two {s t u : State} (e : Effect s t) (e' : Effect t u) : Effects s u := .first e (.one e')

/-- What every effect keeps, a sequence of effects keeps. -/
theorem Effects.keeps {P : State → Prop} (step : ∀ s t, Effect s t → P s → P t) {s t : State}
    (es : Effects s t) (h : P s) : P t := by
  induction es with
  | refl => exact h
  | tail _ e ih => exact step _ _ e ih

/-! ## Bytes and expiries -/

theorem rbWriteOp_effects (b : Byte) (s : State) : Effects s (rbWriteOp b s) := by
  rcases rbWriteOp_cases b s with ⟨-, h⟩ | ⟨room, h⟩ <;> rw [h]
  · exact .one (.answered ..)
  · exact .two (.pushed b s room) (.answered ..)

theorem feed_effects (bs : List Byte) (s : State) : Effects s (feed bs s) := by
  induction bs generalizing s with
  | nil => exact .refl _
  | cons b bs ih => exact (rbWriteOp_effects b s).trans (ih (rbWriteOp b s))

theorem tmrExpireOp_effects (s : State) : Effects s (tmrExpireOp s) := by
  unfold tmrExpireOp
  split
  · exact .two (.expired s ‹_›) (.answered ..)
  · exact .one (.answered ..)

theorem takeEventWord_effects (p : Port) (w : Word) (s : State) : Effects s (takeEventWord p w s) := by
  unfold takeEventWord
  split
  · split
    · exact rbWriteOp_effects _ s
    · exact .one (.answered ..)
  · split
    · exact tmrExpireOp_effects s
    · exact .one (.answered ..)
  · exact .one (.answered ..)

theorem takeEvents_effects (rs : List Request) (s : State) : Effects s (takeEvents rs s) := by
  fun_induction takeEvents rs s with
  | case2 w rest s ih => exact (takeEventWord_effects .producer w s).trans ih
  | case3 w rest s ih => exact (takeEventWord_effects .timer w s).trans ih
  | case4 bs rest s ih => exact (feed_effects bs s).trans ih
  | _ => exact .one (.awaited ..)

theorem gap_effects (s : State) : Effects s (gap s) := takeEvents_effects s.requests s

/-! ## The decoder and the pull loop -/

theorem decStepOp_effects (s : State) : Effects s (decStepOp s).1 := by
  rcases decStepOp_cases s with ⟨-, h⟩ | ⟨-, -, h⟩ | ⟨run, byte, h⟩ <;> rw [h]
  · exact .refl _
  · exact .refl _
  · exact .one (.decoded s run byte)

/-- What the pull loop looks at after a micro-step: it ends without a byte, and with a frame that is complete or
failed (R161). -/
def endsPull : Option DecState → Bool
  | none => true
  | some st => st.terminal

/-- One round of the pull loop (R161). -/
theorem pullLoop_succ (n : Nat) (s : State) :
    pullLoop (n + 1) s =
      if endsPull (decStepOp s).2 then (gap (decStepOp s).1, (decStepOp s).2)
      else pullLoop n (gap (decStepOp s).1) := by
  rw [pullLoop]
  generalize decStepOp s = q
  obtain ⟨t, _ | st⟩ := q
  · rfl
  · cases st <;> rfl

theorem pullLoop_effects (n : Nat) (s : State) : Effects s (pullLoop n s).1 := by
  induction n generalizing s with
  | zero => exact .refl _
  | succ n ih =>
    have round : Effects s (gap (decStepOp s).1) := (decStepOp_effects s).trans (gap_effects _)
    rw [pullLoop_succ]
    split
    · exact round
    · exact round.trans (ih _)

/-! ## The encoder and the link -/

theorem encodeRefused_eq_false_iff (p : Params) (cmd : Byte) (n : Nat) :
    encodeRefused p cmd n = false ↔ n ≤ p.maxPayload ∧ (cmd = p.ackCmd ∨ n ≠ 0) := by
  simp [encodeRefused]
  tauto

/-- A frame of `TXP` that passed the length check (R141). -/
theorem encodeAndSend_effect {cmd : Byte} {s : State} (n : Nat)
    (passed : ¬encodeRefused s.cfg cmd n = true) : Effect s (encodeAndSend cmd .txp n s) :=
  have checked := (encodeRefused_eq_false_iff s.cfg cmd n).1 (Bool.eq_false_iff.2 passed)
  .sent cmd .txp n s rfl checked.1 checked.2

theorem sendAck_effects (s : State) : Effects s (sendAck s) := by
  have first : Effect s (memWrite .ackb 0 s.rxCommand s) := .stored _ _ _ _ rfl Nat.zero_lt_two
  have second : Effect (memWrite .ackb 0 s.rxCommand s) (buildAck s) :=
    .stored _ _ _ _ rfl Nat.one_lt_two
  have frame : Effect (buildAck s) (sendAck s) := 
    .sent s.cfg.ackCmd .ackb 2 _ rfl (Nat.le_refl 2) (.inl rfl)
  exact .first first (.two second frame)

theorem onFramePowerOn_effects (s : State) : Effects s (onFramePowerOn s) := by
  unfold onFramePowerOn
  split
  · exact .one (.waitEnded .ready s (by decide))
  · exact .one (.cleared s)

theorem onFrameAcknowledge_effects {s : State} (h : s.lnkState = .waitingForAcknowledge) :
    Effects s (onFrameAcknowledge s) := by
  unfold onFrameAcknowledge
  split
  · split
    · exact .two (.cleared s) (.waitBegun .waitingForResponse _ rfl)
    · exact .one (.failed .unexpectedCommand s (by decide))
  · have waits : (decReset (sendAck s)).lnkState = .waitingForAcknowledge :=
      (encodeAndSend_keeps _ _ _ (buildAck s)).2.2.2.1.1.trans h
    have restart : Effect (decReset (sendAck s)) (timerStart (decReset (sendAck s))) :=
      .waitBegun (decReset (sendAck s)).lnkState _ (by rw [waits]; rfl)
    exact (sendAck_effects s).trans (.two (.cleared _) restart)

theorem onFrameResponse_effects (s : State) : Effects s (onFrameResponse s) := by
  unfold onFrameResponse
  split
  · exact (sendAck_effects s).trans (.one (.waitEnded .responseReady _ (by decide)))
  · exact .one (.failed .unexpectedCommand s (by decide))

theorem timerStop_effect {s : State} (noError : s.lnkState ≠ .error) : Effect s (timerStop s) :=
  .waitEnded s.lnkState s noError

theorem onFrame_effects (s : State) : Effects s (onFrame s) := by
  unfold onFrame
  split
  case h_2 => exact onFramePowerOn_effects s
  case h_4 h => exact onFrameAcknowledge_effects h
  case h_5 => exact onFrameResponse_effects s
  case h_6 h => exact .one (timerStop_effect (by simp [h]))
  all_goals exact .refl _

theorem frameErrorKind_ne_none (cause : DecErr) : frameErrorKind cause ≠ .none := by
  cases cause <;> decide

theorem pollFinish_effects (r : Option DecState) (s : State) : Effects s (pollFinish r s) := by
  unfold pollFinish
  split
  · exact .one (.failed _ s (frameErrorKind_ne_none _))
  · exact onFrame_effects s
  · exact .refl _

/-- Parts 1 and 2 of a poll whose part 1 does not end it (R159 to R161). -/
def pulled (s : State) : State × Option DecState :=
  pullLoop (pollFuel (gap (consumeExpiry s))) (gap (consumeExpiry s))

/-- The three parts of a poll (R159). -/
theorem pollOp_eq (s : State) :
    pollOp s = if timeoutEnds s then enterError .timeout s else pollFinish (pulled s).2 (pulled s).1 := rfl

/-- The answer of a poll that has ended in this state (R159). -/
def pollAnswer (t : State) : State := answer .host .ok (lnkValue t.lnkState) t

theorem exec_lnkPoll (s : State) : exec .lnkPoll s = .next (pollAnswer (pollOp s)) := rfl

theorem consumeExpiry_effects {s : State} (goesOn : ¬timeoutEnds s = true) : Effects s (consumeExpiry s) := by
  unfold consumeExpiry
  split
  · rename_i fired
    refine .one (timerStop_effect fun inError => goesOn ?_)
    simp [timeoutEnds, fired, inError, LnkState.ignoresTimeout]
  · exact .refl _

theorem pollOp_effects (s : State) : Effects s (pollOp s) := by
  rw [pollOp_eq]
  split
  · exact .one (.failed .timeout s (by decide))
  · rename_i goesOn
    have pull : Effects s (pulled s).1 :=
      ((consumeExpiry_effects goesOn).trans (gap_effects _)).trans (pullLoop_effects _ _)
    exact pull.trans (pollFinish_effects _ _)

theorem execLnkPowerOnTx_effects {cmd : Byte} {s t : State} (h : exec (.lnkPowerOnTx cmd) s = .next t) :
    Effects s t := by
  obtain rfl := Host.Outcome.next.inj h
  split
  · exact .one (.answered ..)
  · rename_i passed
    have frame : Effect (decReset s) (encodeAndSend cmd .txp s.txLen.toNat (decReset s)) :=
      encodeAndSend_effect (s := decReset s) s.txLen.toNat passed
    exact .first (.cleared s) (.first frame (.first (.issued cmd _ _)
      (.two (.waitBegun .waitingForPowerOn _ rfl) (.answered ..))))

theorem execLnkSend_effects {cmd exp : Byte} {s t : State} (h : exec (.lnkSend cmd exp) s = .next t) :
    Effects s t := by
  obtain rfl := Host.Outcome.next.inj h
  split
  · exact .one (.answered ..)
  · rename_i passed
    have frame : Effect (decReset s) (encodeAndSend cmd .txp s.txLen.toNat (decReset s)) :=
      encodeAndSend_effect (s := decReset s) s.txLen.toNat passed
    exact .first (.cleared s) (.first frame (.first (.issued cmd exp _)
      (.two (.waitBegun .waitingForAcknowledge _ rfl) (.answered ..))))

/-! ## Every instruction and every step -/

/-- Every instruction is a sequence of effects. -/
theorem exec_effects {i : Instr} {s t : State} (h : exec i s = .next t) : Effects s t := by
  cases i
  case lnkPowerOnTx => exact execLnkPowerOnTx_effects h
  case lnkSend => exact execLnkSend_effects h
  all_goals obtain rfl := Host.Outcome.next.inj h
  case rbWrite b => exact rbWriteOp_effects b s
  case rbRead =>
    split
    · exact .one (.answered ..)
    · exact .two (.popped s (Bool.eq_false_iff.2 ‹_›)) (.answered ..)
  case rbClear => exact .two (.emptied s) (.answered ..)
  case decStep => exact (decStepOp_effects s).trans (.one (.answered ..))
  case decReset => exact .two (.cleared s) (.answered ..)
  case encFrame cmd =>
    split
    · exact .one (.answered ..)
    · exact .two (encodeAndSend_effect _ ‹_›) (.answered ..)
  case txbWrite idx b =>
    split
    · exact .two (.stored .txp _ b s rfl ((indexOk_iff _ _).1 ‹_›)) (.answered ..)
    · exact .one (.answered ..)
  case txbSetlen len =>
    split
    · exact .two (.lengthSet len s (of_decide_eq_true ‹_›)) (.answered ..)
    · exact .one (.answered ..)
  case lnkInit => exact .two (.reinitialised s) (.answered ..)
  case lnkPowerOn => exact .first (.cleared s) (.two (.waitBegun .waitingForPowerOn _ rfl) (.answered ..))
  case lnkPoll => exact (pollOp_effects s).trans (.one (.answered ..))
  case tmrExpire => exact tmrExpireOp_effects s
  case wireAck | wirePwronDone | wireData => exact feed_effects _ s
  case nop => exact .one (.answered ..)
  all_goals
    split <;> exact .one (.answered ..)

/-! ## Every step -/

/-- The step for an action, in the state in which its input has been taken. -/
def perform : Action → State → Host.Outcome State Fault Refusal
  | .wait, t => .next t
  | .run i, t => exec i t
  | .illegal p, t => .next (answerIllegal p t)
  | .bytes bs, t => .next (feed bs t)
  | .reset, t => .next (hardwareReset t)

theorem step_of_nil {s : State} (h : s.requests = []) : step s = .next s := by
  simp [step, fetch, h]

/-- A step performs what its next input asks for (R70). -/
theorem step_of_cons {s : State} {r : Request} {rest : List Request} (h : s.requests = r :: rest) :
    step s = perform (actionOf s.cfg r) { s with requests := rest } := by
  simp only [step, fetch, h]
  cases actionOf s.cfg r <;> rfl

theorem perform_effects {a : Action} {s t : State} (h : perform a s = .next t) :
    a = .reset ∧ t = hardwareReset s ∨ Effects s t := by
  cases a
  case run i => exact .inr (exec_effects h)
  all_goals obtain rfl := Host.Outcome.next.inj h
  case wait => exact .inr (.refl _)
  case illegal p => exact .inr (.one (.answered ..))
  case bytes bs => exact .inr (feed_effects bs s)
  case reset => exact .inl ⟨rfl, rfl⟩

theorem actionOfWord_ne_reset (p : Port) (w : Word) : actionOfWord p w ≠ .reset := by
  unfold actionOfWord
  split
  · split <;> simp
  · simp

theorem actionOfFrame_ne_reset (cfg : Params) (bs : List Byte) : actionOfFrame cfg bs ≠ .reset := by
  unfold actionOfFrame
  split <;> simp

theorem actionOf_eq_reset {cfg : Params} {r : Request} (h : actionOf cfg r = .reset) : r = .reset := by
  cases r with
  | word p w _ => exact absurd h (actionOfWord_ne_reset p w)
  | frame bs _ => exact absurd h (actionOfFrame_ne_reset cfg bs)
  | reset => rfl

/-- A step that takes any input but reset is a sequence of effects, the first of which is that it is taken. -/
theorem step_effects_of_cons {s t : State} {r : Request} {rest : List Request} (h : s.requests = r :: rest)
    (noReset : r ≠ .reset) (hstep : step s = .next t) : Effects s t := by
  rw [step_of_cons h] at hstep
  rcases perform_effects hstep with ⟨isReset, -⟩ | effects
  · exact absurd (actionOf_eq_reset isReset) noReset
  · exact .first (.awaited rest s) effects

/-- A step is a hardware reset, or a sequence of effects. -/
theorem step_effects {s t : State} (hstep : step s = .next t) :
    (∃ rest, t = hardwareReset { s with requests := rest }) ∨ Effects s t := by
  cases h : s.requests with
  | nil =>
    rw [step_of_nil h] at hstep
    cases hstep
    exact .inr (.refl _)
  | cons r rest =>
    by_cases isReset : r = .reset
    · subst isReset
      rw [step_of_cons h] at hstep
      cases hstep
      exact .inl ⟨rest, rfl⟩
    · exact .inr (step_effects_of_cons h isReset hstep)

end Sys2Proof.Machine
end

section
/-! The step and what every step keeps (spec/10_state.md R41, spec/70_reset_and_hazards.md): each claim is proved
of the single effects and carried along the sequence of effects that a step is. -/

namespace Sys2Proof.Machine

/-! ## What a step does with its input -/

theorem actionOfWord_of_port {w : Word} {i : Instr} (h : decodeWord w = .ok i) :
    actionOfWord i.port w = .run i := by
  simp [actionOfWord, h]

theorem actionOfWord_of_not_taken {p : Port} {w : Word} (h : ∀ i, decodeWord w = .ok i → i.port ≠ p) :
    actionOfWord p w = .illegal p := by
  unfold actionOfWord
  split
  · exact if_neg (h _ ‹_›)
  · rfl

theorem actionOfFrame_of_ok {cfg : Params} {bs : List Byte} {i : Instr} (h : decodeFrame cfg bs = .ok i) :
    actionOfFrame cfg bs = .run i := by
  simp [actionOfFrame, h]

/-- Settles O9: the input asks for the instruction it decodes to. -/
theorem stepRunsTheDecodedInstruction : Obligations.StepRunsTheDecodedInstruction := by
  intro s rest i slot
  constructor
  · intro w decoded next
    rw [step_of_cons next, actionOf, actionOfWord_of_port decoded]
    rfl
  · intro bs decoded next
    rw [step_of_cons next, actionOf, actionOfFrame_of_ok decoded]
    rfl

/-- Settles O10: a word that its port does not take asks for the refusal. -/
theorem illegalWordChangesNothing : Obligations.IllegalWordChangesNothing := by
  intro s rest p w slot next notTaken
  rw [step_of_cons next, actionOf, actionOfWord_of_not_taken notTaken]
  rfl

theorem read_hardwareReset_mem (s : State) (sp : Space) (i : Nat) : ((hardwareReset s).mem sp).read i = none := by
  cases sp <;> rfl

/-- Settles O12: every register is a field of `State.resetWith`, the memories are `read_hardwareReset_mem`. -/
theorem resetInputResetsEverything : Obligations.ResetInputResetsEverything := by
  intro s rest next
  have decoder : decoderCleared (hardwareReset { s with requests := rest }) := decoderCleared_resetWith s.cfg
  exact ⟨_, step_of_cons next, rfl, rfl, decoder, rfl, rfl, rfl, rfl, rfl, rfl, rfl, rfl, rfl, rfl, rfl,
    read_hardwareReset_mem _, rfl, rfl⟩

theorem exec_has_next (i : Instr) (s : State) : ∃ t, exec i s = .next t := by
  cases i <;> exact ⟨_, rfl⟩

theorem perform_has_next (a : Action) (s : State) : ∃ t, perform a s = .next t := by
  cases a
  case run i => exact exec_has_next i s
  all_goals exact ⟨_, rfl⟩

/-- Settles O13: every action has a next state, and without an input the step is `step_of_nil`. -/
theorem noStepStops : Obligations.NoStepStops := by
  refine ⟨exec_has_next, fun s => ?_, fun s => step_of_nil⟩
  cases h : s.requests with
  | nil => exact ⟨s, step_of_nil h⟩
  | cons r rest =>
    rw [step_of_cons h]
    exact perform_has_next _ _

/-! ## Outputs and the preamble flag -/

/-- Outputs and answers extended, parameters kept (R39, R70 (c), R233). -/
def outputsGrow (s t : State) : Prop :=
  s.txStream <+: t.txStream ∧ s.tmrLog <+: t.tmrLog ∧ s.results <+: t.results ∧ t.cfg = s.cfg

theorem outputsGrow_of_append {s t : State} (tx : List Byte) (tmr : List TimerRequest) (rs : List Result)
    (htx : t.txStream = s.txStream ++ tx) (htmr : t.tmrLog = s.tmrLog ++ tmr)
    (hrs : t.results = s.results ++ rs) (cfg : t.cfg = s.cfg) : outputsGrow s t :=
  ⟨⟨tx, htx.symm⟩, ⟨tmr, htmr.symm⟩, ⟨rs, hrs.symm⟩, cfg⟩

theorem outputsGrow_of_same {s t : State} (tx : t.txStream = s.txStream) (tmr : t.tmrLog = s.tmrLog)
    (rs : t.results = s.results) (cfg : t.cfg = s.cfg) : outputsGrow s t :=
  outputsGrow_of_append [] [] [] (by simp [tx]) (by simp [tmr]) (by simp [rs]) cfg

theorem outputsGrow_refl (s : State) : outputsGrow s s := outputsGrow_of_same rfl rfl rfl rfl

theorem outputsGrow_trans {s t u : State} (h : outputsGrow s t) (h' : outputsGrow t u) : outputsGrow s u := by
  obtain ⟨tx, tmr, rs, cfg⟩ := h
  obtain ⟨tx', tmr', rs', cfg'⟩ := h'
  exact ⟨tx.trans tx', tmr.trans tmr', rs.trans rs', cfg'.trans cfg⟩

theorem Effect.extends_outputs {s t : State} (e : Effect s t) : outputsGrow s t := by
  cases e with
  | answered => exact outputsGrow_of_append [] [] [_] (by simp) (by simp) rfl rfl
  | decoded =>
    obtain ⟨_, _, _, _, _, _, _, _, _, h⟩ := decConsume_frame (ringFront s) (ringPop s)
    rw [h]
    exact outputsGrow_of_same rfl rfl rfl rfl
  | stored sp => exact outputsGrow_of_same (by simp) (by simp) (by simp) (by simp)
  | sent cmd sp n =>
    obtain ⟨results, -, -, -, ⟨-, -, timer⟩, cfg, -⟩ := encodeAndSend_keeps cmd sp n s
    exact outputsGrow_of_append _ [] [] ((encodeAndSend_txStream cmd sp n s).trans (List.append_assoc ..))
      (by simp [timer]) (by simp [results]) cfg
  | waitBegun => exact outputsGrow_of_append [] [_] [] (by simp) rfl (by simp) rfl
  | waitEnded => exact outputsGrow_of_append [] [_] [] (by simp) rfl (by simp) rfl
  | failed => exact outputsGrow_of_append [] [.stop] [] (by simp [enterError_eq]) rfl (by simp [enterError_eq]) rfl
  | reinitialised =>
    exact outputsGrow_of_append [] [.stop] [] (by simp [sessionInit_eq]) rfl (by simp [sessionInit_eq]) rfl
  | _ => exact outputsGrow_of_same rfl rfl rfl rfl

theorem Effects.extends_outputs {s t : State} (es : Effects s t) : outputsGrow s t := by
  induction es with
  | refl => exact outputsGrow_refl s
  | tail _ e ih => exact outputsGrow_trans ih e.extends_outputs

/-- Settles O22: each effect extends the outputs. -/
theorem outputsOnlyGrow : Obligations.OutputsOnlyGrow :=
  fun _ _ _ _ next noReset hstep => (step_effects_of_cons next noReset hstep).extends_outputs

/-- Only sending a frame touches the flag, and it sets it (R142). -/
theorem Effect.keeps_synchronized {s t : State} (e : Effect s t) (h : s.synchronized = true) :
    t.synchronized = true := by
  cases e with
  | decoded =>
    obtain ⟨_, _, _, _, _, _, _, _, _, consumed⟩ := decConsume_frame (ringFront s) (ringPop s)
    rw [consumed]
    exact h
  | stored sp => rw [memWrite_synchronized, h]
  | sent cmd sp n =>
    obtain ⟨_, _, _, frame⟩ := encodeAndSend_frame cmd sp n s
    rw [frame]
  | _ => exact h

/-- Settles O21: no effect clears the flag. -/
theorem preambleFlagIsNeverCleared : Obligations.PreambleFlagIsNeverCleared :=
  fun _ _ _ _ next noReset hstep =>
    (step_effects_of_cons next noReset hstep).keeps fun _ _ e h => e.keeps_synchronized h

end Sys2Proof.Machine
end

section
/-! The invariants `Inv` and `Written` (spec/10_state.md R21, R22, R30, R41; spec/20_memory.md R60): the parts of
`Inv` one after the other, each under a single effect, then `Written`, then the statements that are settled with
them. -/

namespace Sys2Proof.Machine

/-! ## The memories -/

/-- The four memories by their space: canonical form and size (R60). -/
theorem memoryOk_iff (s : State) :
    memoryOk s ↔
      (∀ sp, (s.mem sp).wf = true ∧ (s.mem sp).below (capacity s.cfg sp) = true) ∧
        s.txLen.toNat ≤ s.cfg.maxPayload := by
  constructor
  · rintro ⟨rb, rxp, txp, ackb, rb', rxp', txp', ackb', len⟩
    refine ⟨fun sp => ?_, len⟩
    cases sp
    case rb => exact ⟨rb, rb'⟩
    case rxp => exact ⟨rxp, rxp'⟩
    case txp => exact ⟨txp, txp'⟩
    case ackb => exact ⟨ackb, ackb'⟩
  · rintro ⟨all, len⟩
    exact ⟨(all .rb).1, (all .rxp).1, (all .txp).1, (all .ackb).1, (all .rb).2, (all .rxp).2, (all .txp).2,
      (all .ackb).2, len⟩

theorem Memory.below_iff (m : Memory) (size : Nat) : m.below size = true ↔ ∀ c ∈ m, c.1 < size := by
  simp [Memory.below]

theorem Memory.mem_write {m : Memory} {i : Nat} {v : Byte} {c : Host.Cell} (h : c ∈ Memory.write m i v) :
    c = (i, v) ∨ c ∈ m := by
  induction m with
  | nil => simpa [Memory.write] using h
  | cons d m ih =>
    simp only [Memory.write] at h
    split at h
    · simpa using h
    · split at h
      · rcases List.mem_cons.1 h with h | h
        · exact .inl h
        · exact .inr (.tail _ h)
      · rcases List.mem_cons.1 h with h | h
        · exact .inr (h ▸ .head _)
        · exact (ih h).imp_right (.tail _)

theorem Memory.below_write {m : Memory} {i size : Nat} (v : Byte) (h : m.below size = true) (hi : i < size) :
    (Memory.write m i v).below size = true := by
  rw [Memory.below_iff] at h ⊢
  intro c hc
  rcases Memory.mem_write hc with rfl | old
  · exact hi
  · exact h c old

/-- The memories of `t` are those of `s`, but for one byte written within the size of its array. -/
def writesInside (s t : State) : Prop :=
  ∃ sp i v, i < capacity s.cfg sp ∧ ∀ sp', t.mem sp' = if sp' = sp then (s.mem sp).write i v else s.mem sp'

theorem writesInside_memWrite {s : State} {sp : Space} {i : Nat} (v : Byte) (h : i < capacity s.cfg sp) :
    writesInside s (memWrite sp i v s) := by
  refine ⟨sp, i, v, h, fun sp' => ?_⟩
  by_cases same : sp' = sp
  · subst same
    simp [memWrite]
  · simp [memWrite, same, State.mem_setMem_other s _ same]

theorem memoryOk_of_same {s t : State} (h : memoryOk s) (cfg : t.cfg = s.cfg) (mem : ∀ sp, t.mem sp = s.mem sp)
    (len : t.txLen = s.txLen) : memoryOk t := by
  rw [memoryOk_iff] at h ⊢
  rw [cfg, len]
  simpa only [mem] using h

theorem memoryOk_of_writesInside {s t : State} (h : memoryOk s) (cfg : t.cfg = s.cfg) (len : t.txLen = s.txLen)
    (writes : writesInside s t) : memoryOk t := by
  rw [memoryOk_iff] at h ⊢
  obtain ⟨arrays, fits⟩ := h
  obtain ⟨sp, i, v, inside, mem⟩ := writes
  rw [cfg, len]
  refine ⟨fun sp' => ?_, fits⟩
  rw [mem]
  split
  · rename_i same
    subst same
    exact ⟨Memory.wf_write _ i v (arrays sp').1, Memory.below_write v (arrays sp').2 inside⟩
  · exact arrays sp'

/-- What sending a frame does to the memories: the marker over the last byte, unless it is an acknowledgement
(R143). -/
theorem encodeAndSend_mem (cmd : Byte) (buf sp : Space) (n : Nat) (s : State) :
    (encodeAndSend cmd buf n s).mem sp =
      if cmd ≠ s.cfg.ackCmd ∧ sp = buf then (s.mem buf).write (n - 1) (sequenceMarker s.cfg s.lnkSeq)
      else s.mem sp := by
  have preambleMem : ∀ sp, (sendPreamble s).mem sp = s.mem sp := by
    intro sp
    rw [sendPreamble_eq]
    cases sp <;> rfl
  have preambleSeq : (sendPreamble s).lnkSeq = s.lnkSeq ∧ (sendPreamble s).cfg = s.cfg := by
    rw [sendPreamble_eq]
    exact ⟨rfl, rfl⟩
  have emitted : (encodeAndSend cmd buf n s).mem sp = (injectSequence cmd buf n (sendPreamble s)).mem sp := by
    cases sp <;> rfl
  rw [emitted]
  by_cases ack : cmd = s.cfg.ackCmd
  · rw [injectSequence_of_ack (by rw [preambleSeq.2, ack]), preambleMem, if_neg fun marked => marked.1 ack]
  · have marked : (injectSequence cmd buf n (sendPreamble s)).mem sp =
        (memWrite buf (n - 1) (sequenceMarker s.cfg s.lnkSeq) (sendPreamble s)).mem sp := by
      rw [injectSequence_of_not_ack (preambleSeq.2 ▸ ack), preambleSeq.1, preambleSeq.2]
      cases sp <;> rfl
    rw [marked]
    by_cases same : sp = buf
    · subst same
      simp [memWrite, preambleMem, ack]
    · simp [memWrite, State.mem_setMem_other _ _ same, preambleMem, same]

theorem memoryOk_encodeAndSend {cmd : Byte} {buf : Space} {n : Nat} {s : State} (h : memoryOk s)
    (fits : n ≤ capacity s.cfg buf) (content : cmd = s.cfg.ackCmd ∨ n ≠ 0) :
    memoryOk (encodeAndSend cmd buf n s) := by
  obtain ⟨cfg, len⟩ : (encodeAndSend cmd buf n s).cfg = s.cfg ∧ (encodeAndSend cmd buf n s).txLen = s.txLen := by
    obtain ⟨_, _, _, frame⟩ := encodeAndSend_frame cmd buf n s
    rw [frame]
    cases buf <;> exact ⟨rfl, rfl⟩
  by_cases ack : cmd = s.cfg.ackCmd
  · exact memoryOk_of_same h cfg (fun sp => by rw [encodeAndSend_mem, if_neg fun marked => marked.1 ack]) len
  · have inside : n - 1 < capacity s.cfg buf := by
      have := content.resolve_left ack
      omega
    refine memoryOk_of_writesInside h cfg len ⟨buf, n - 1, sequenceMarker s.cfg s.lnkSeq, inside, fun sp => ?_⟩
    rw [encodeAndSend_mem]
    simp [ack]

/-! ## The decoder -/

/-- The decoder's part of the invariant: R41 (a), (b), (c). -/
def decoderOk (s : State) : Prop := decIdleOk s ∧ decErrOk s ∧ decLengthOk s

theorem decoderOk_congr {s t : State} (h : decoderOk s) (cfg : t.cfg = s.cfg) (same : sameDecoder s t) :
    decoderOk t := by
  obtain ⟨st, count, even, odd, cursor, err, cmd, len⟩ := same
  simpa only [decoderOk, decIdleOk, decErrOk, decLengthOk, cfg, st, count, even, odd, cursor, err, cmd, len]
    using h

theorem decoderOk_of_cleared {s : State} (h : decoderCleared s) : decoderOk s := by
  obtain ⟨st, count, even, odd, cursor, err, cmd, len⟩ := h
  simp [decoderOk, decIdleOk, decErrOk, decLengthOk, st, count, even, odd, cursor, err, cmd, len,
    DecState.code]

/-- A length that the decoder has accepted (R128). -/
abbrev acceptedLength (s : State) : Prop := 1 ≤ s.rxLength.toNat ∧ s.rxLength.toNat ≤ s.cfg.maxPayload

/-- The decoder has the whole payload (states 7 to 10, R41 (c)). -/
def payloadComplete (st : DecState) : Bool := decide (7 ≤ st.code.toNat) && decide (st.code.toNat ≤ 10)

/-- R41 (c) by the two kinds of states: within the payload and behind it. -/
theorem decLengthOk_iff (s : State) :
    decLengthOk s ↔
      (s.decState = .lengthLowRead → acceptedLength s ∧ s.decCursor.toNat < s.rxLength.toNat) ∧
        (payloadComplete s.decState = true → acceptedLength s ∧ s.decCursor = s.rxLength) := by
  cases h : s.decState <;> simp [decLengthOk, payloadComplete, DecState.code, h]
  case lengthLowRead => omega
  all_goals
    intro same _ _
    rw [same]

/-- A state in the middle of a frame, with no payload byte taken. -/
theorem decoderOk_of_header {s : State} (noIdle : s.decState ≠ .noFrame) (early : s.decState.code.toNat < 6)
    (clear : s.decErr = .none) : decoderOk s := by
  refine ⟨fun idle => absurd idle noIdle, ?_, (decLengthOk_iff s).2 ⟨?_, ?_⟩⟩
  · refine ⟨fun cause => absurd clear cause, fun failed => ?_⟩
    simp [failed, DecState.code] at early
  · intro reading
    simp [reading, DecState.code] at early
  · intro complete
    simp only [payloadComplete, Bool.and_eq_true, decide_eq_true_eq] at complete
    omega

/-- A state at or behind the payload, its length accepted. -/
theorem decoderOk_of_payload {s : State} (clear : s.decErr = .none) (len : acceptedLength s)
    (cursor : s.decState = .lengthLowRead ∧ s.decCursor.toNat < s.rxLength.toNat ∨
      payloadComplete s.decState = true ∧ s.decCursor = s.rxLength) : decoderOk s := by
  refine ⟨?_, ?_, (decLengthOk_iff s).2 ⟨?_, ?_⟩⟩
  · intro idle
    simp [idle, payloadComplete, DecState.code] at cursor
  · refine ⟨fun cause => absurd clear cause, fun failed => ?_⟩
    simp [failed, payloadComplete, DecState.code] at cursor
  · intro reading
    rcases cursor with ⟨-, inside⟩ | ⟨complete, -⟩
    · exact ⟨len, inside⟩
    · simp [reading, payloadComplete, DecState.code] at complete
  · intro complete
    rcases cursor with ⟨reading, -⟩ | ⟨-, same⟩
    · simp [reading, payloadComplete, DecState.code] at complete
    · exact ⟨len, same⟩

theorem decoderOk_of_failed {s : State} (failed : s.decState = .error) (cause : s.decErr ≠ .none) :
    decoderOk s := by
  refine ⟨fun idle => ?_, ⟨fun _ => failed, fun _ => cause⟩, (decLengthOk_iff s).2 ⟨fun reading => ?_, fun h => ?_⟩⟩
  · simp [failed] at idle
  · simp [failed] at reading
  · simp [failed, payloadComplete, DecState.code] at h

/-- While a frame is being read, no failure is recorded. -/
theorem decErr_of_running {s : State} (h : decoderOk s) (run : s.decState.terminal = false) :
    s.decErr = .none := by
  by_contra cause
  rw [h.2.1.1 cause] at run
  exact absurd run (by decide)

/-- The states whose byte is accumulated and no more than stored. -/
theorem decoderOk_header {s : State} (b : Byte) (h : decoderOk s) (clear : s.decErr = .none)
    (hstate : s.decState = .frameMarkerRead ∨ s.decState = .destinationRead ∨ s.decState = .sourceRead ∨
      s.decState = .commandRead ∨ s.decState = .payloadRead) : decoderOk (decConsume b s) := by
  have length := ((decLengthOk_iff s).1 h.2.2).2
  rw [decConsume_header b hstate]
  rcases hstate with hs | hs | hs | hs | hs
  case inr.inr.inr.inr =>
    obtain ⟨len, cursor⟩ := length (by rw [hs]; decide)
    refine decoderOk_of_payload (by simp [clear]) ?_ (.inr ⟨by simp [hs]; decide, ?_⟩)
    · simpa [acceptedLength, hs, accumulate_eq] using len
    · simpa [hs] using cursor
  all_goals exact decoderOk_of_header (by simp [hs, DecState.advance]) (by simp [hs]; decide) (by simp [clear])

/-- One byte taken keeps the decoder's part of the invariant, whatever the decoder's state (R123 to R132). -/
theorem decoderOk_decConsume {s : State} (b : Byte) (h : decoderOk s) (run : s.decState.terminal = false) :
    decoderOk (decConsume b s) := by
  have clear := decErr_of_running h run
  obtain ⟨reading, complete⟩ := (decLengthOk_iff s).1 h.2.2
  cases hs : s.decState
  case noFrame =>
    by_cases marker : b = s.cfg.frameMarker
    · rw [marker, decConsume_marker hs]
      exact decoderOk_of_header (by simp) (by simp [DecState.code]) (by simp [clear])
    · rwa [decConsume_stray hs marker]
  case frameMarkerRead => exact decoderOk_header b h clear (.inl hs)
  case destinationRead => exact decoderOk_header b h clear (.inr (.inl hs))
  case sourceRead => exact decoderOk_header b h clear (.inr (.inr (.inl hs)))
  case commandRead => exact decoderOk_header b h clear (.inr (.inr (.inr (.inl hs))))
  case payloadRead => exact decoderOk_header b h clear (.inr (.inr (.inr (.inr hs))))
  case lengthHighRead =>
    rw [decConsume_lengthLow b hs, decLengthLow_eq]
    by_cases inRange : rxLengthOk s.cfg (lengthOf (s.rxLength.extractLsb' 8 8) b) = true
    · have len := (rxLengthOk_iff _ _).1 inRange
      refine decoderOk_of_payload (by simp [inRange, clear]) ?_ (.inl ⟨by simp [inRange], ?_⟩)
      · simpa [acceptedLength, accumulate_eq] using len
      · exact len.1
    · exact decoderOk_of_failed (by simp [inRange]) (by simp [inRange])
  case lengthLowRead =>
    obtain ⟨len, inside⟩ := reading hs
    rw [decConsume_payload b hs, decPayload_eq]
    have cursor : (s.decCursor + 1).toNat = s.decCursor.toNat + 1 := by bv_omega
    refine decoderOk_of_payload (by simp [clear]) ?_ ?_
    · simpa [acceptedLength, accumulate_eq] using len
    · by_cases last : s.decCursor + 1 = s.rxLength
      · refine .inr ⟨?_, by simpa using last⟩
        simp only [if_pos last]
        split <;> decide
      · refine .inl ⟨(if_neg last).trans hs, ?_⟩
        have : (s.decCursor + 1).toNat ≠ s.rxLength.toNat := fun same => last (BitVec.eq_of_toNat_eq same)
        simp only [memWrite_rxLength, accumulate_rxLength]
        omega
  case paddingRead | evenChecksumRead =>
    obtain ⟨len, cursor⟩ := complete (by rw [hs]; decide)
    rw [decConsume_checksum b (by simp [hs])]
    by_cases same : b = expectedChecksum s
    · exact decoderOk_of_payload (by simp [same, clear]) len (.inr ⟨by simp [same, hs]; decide, cursor⟩)
    · exact decoderOk_of_failed (by simp [same]) (by simp [same])
  case ready | error => simp [hs, DecState.terminal] at run

/-- Of the memories a byte taken changes `RXP` alone, and only while the payload is being read (R30, R129). -/
theorem decConsume_mem (b : Byte) (s : State) (sp : Space) :
    (decConsume b s).mem sp =
      if s.decState = .lengthLowRead ∧ sp = .rxp then s.rxp.write s.decCursor.toNat b else s.mem sp := by
  by_cases hs : s.decState = .lengthLowRead
  · rw [decConsume_payload b hs, decPayload_eq]
    cases sp
    case rxp => simp [hs, State.mem, memWrite, State.setMem]
    all_goals simp [State.mem, memWrite, State.setMem, accumulate_eq]
  · have kept := decConsume_rxp b hs
    obtain ⟨_, _, _, _, _, _, _, _, _, frame⟩ := decConsume_frame b s
    rw [if_neg fun reads => hs reads.1]
    rw [frame] at kept ⊢
    cases sp
    case rxp => exact kept
    all_goals rfl

theorem memoryOk_decConsume {s : State} (b : Byte) (h : memoryOk s) (decoder : decoderOk s) :
    memoryOk (decConsume b s) := by
  have mem := decConsume_mem b s
  obtain ⟨cfg, len⟩ : (decConsume b s).cfg = s.cfg ∧ (decConsume b s).txLen = s.txLen := by
    obtain ⟨_, _, _, _, _, _, _, _, _, frame⟩ := decConsume_frame b s
    rw [frame]
    exact ⟨rfl, rfl⟩
  by_cases hs : s.decState = .lengthLowRead
  · obtain ⟨⟨-, accepted⟩, inside⟩ := ((decLengthOk_iff s).1 decoder.2.2).1 hs
    have room : s.decCursor.toNat < capacity s.cfg .rxp := Nat.lt_of_lt_of_le inside accepted
    refine memoryOk_of_writesInside h cfg len ⟨.rxp, s.decCursor.toNat, b, room, fun sp => ?_⟩
    rw [mem]
    simp only [hs, true_and]
    rfl
  · refine memoryOk_of_same h cfg (fun sp => ?_) len
    rw [mem, if_neg fun reads => hs reads.1]

/-! ## The ring, the timer and the cause of `Error` -/

theorem Effect.keeps_ringOk {s t : State} (e : Effect s t) (ok : ringOk s) : ringOk t := by
  cases e with
  | pushed b => exact ringOk_ringPush ok b
  | popped => exact ringOk_ringPop ok
  | emptied =>
    have positive : 0 < s.cfg.rbCap := Nat.zero_lt_of_lt ok.2.1
    exact ⟨ok.1, positive, positive⟩
  | decoded =>
    obtain ⟨_, _, _, _, _, _, _, _, _, frame⟩ := decConsume_frame (ringFront s) (ringPop s)
    rw [frame]
    exact ringOk_ringPop ok
  | stored sp => cases sp <;> exact ok
  | sent cmd sp n =>
    obtain ⟨-, ⟨rd, wr⟩, -, -, -, cfg, -⟩ := encodeAndSend_keeps cmd sp n s
    simpa only [ringOk, rd, wr, cfg] using ok
  | _ => exact ok

/-- The invariant's parts about the session: R41 (d) to (f). -/
def sessionOk (s : State) : Prop := timerOk s ∧ errorCauseOk s

theorem sessionOk_congr {s t : State} (h : sessionOk s) (timer : sameTimer s t) (session : sameSession s t) :
    sessionOk t := by
  obtain ⟨armed, fired, -⟩ := timer
  obtain ⟨st, -, -, cause⟩ := session
  simpa only [sessionOk, timerOk, errorCauseOk, armed, fired, st, cause] using h

/-- A session state entered with the timer stopped. -/
theorem sessionOk_of_stopped {s : State} (armed : s.tmrArmed = false) (fired : s.tmrFired = false)
    (cause : s.lnkState = .error → s.lnkErr ≠ .none) : sessionOk s := by
  simp [sessionOk, timerOk, armed, fired]
  exact cause

theorem Effect.keeps_sessionOk {s t : State} (e : Effect s t) (h : sessionOk s) : sessionOk t := by
  obtain ⟨⟨firedArmed, armedWaits⟩, cause⟩ := id h
  cases e with
  | decoded =>
    obtain ⟨_, _, _, _, _, _, _, _, _, frame⟩ := decConsume_frame (ringFront s) (ringPop s)
    rw [frame]
    exact h
  | expired _ armed => exact ⟨⟨fun _ => armed, armedWaits⟩, cause⟩
  | stored sp => cases sp <;> exact h
  | sent cmd sp n =>
    obtain ⟨-, -, -, session, timer, -⟩ := encodeAndSend_keeps cmd sp n s
    exact sessionOk_congr h timer session
  | waitBegun st _ waits =>
    refine ⟨⟨fun fired => absurd fired Bool.false_ne_true, fun _ => waits⟩, fun inError => ?_⟩
    rw [show st = .error from inError] at waits
    exact absurd waits (by decide)
  | waitEnded st _ noError => exact sessionOk_of_stopped rfl rfl fun inError => absurd inError noError
  | failed kind _ hkind =>
    refine sessionOk_of_stopped rfl rfl fun _ => ?_
    by_cases already : s.lnkState = .error
    · simp [enterError_eq, already, cause]
    · simp [enterError_eq, already, hkind]
  | reinitialised => exact sessionOk_of_stopped rfl rfl (by simp [sessionInit_eq])
  | _ => exact h

/-! ## The invariant -/

theorem inv_iff (s : State) : Inv s ↔ ringOk s ∧ memoryOk s ∧ decoderOk s ∧ sessionOk s :=
  ⟨fun ⟨ring, memory, idle, err, length, timer, cause⟩ => ⟨ring, memory, ⟨idle, err, length⟩, timer, cause⟩,
    fun ⟨ring, memory, ⟨idle, err, length⟩, timer, cause⟩ => ⟨ring, memory, idle, err, length, timer, cause⟩⟩

theorem mem_ringPush (b : Byte) (s : State) (sp : Space) :
    (ringPush b s).mem sp = (memWrite .rb s.rbWr b s).mem sp := by
  cases sp <;> rfl

theorem Effect.keeps_memoryOk {s t : State} (e : Effect s t) (ring : ringOk s) (h : memoryOk s)
    (decoder : decoderOk s) : memoryOk t := by
  cases e with
  | pushed b =>
    obtain ⟨-, -, inside⟩ := ring
    obtain ⟨sp, i, v, room, mem⟩ := writesInside_memWrite (sp := .rb) b inside
    exact memoryOk_of_writesInside h rfl rfl ⟨sp, i, v, room, fun sp' => by rw [mem_ringPush, mem]⟩
  | decoded => exact memoryOk_decConsume (s := ringPop s) (ringFront s) h decoder
  | stored sp i b _ _ inside =>
    exact memoryOk_of_writesInside h (by simp) (by simp) (writesInside_memWrite b inside)
  | lengthSet len _ fits =>
    obtain ⟨arrays, -⟩ := (memoryOk_iff s).1 h
    exact (memoryOk_iff _).2 ⟨arrays, fits⟩
  | sent cmd sp n _ _ fits content => exact memoryOk_encodeAndSend h fits content
  | _ => exact h

theorem Effect.keeps_decoderOk {s t : State} (e : Effect s t) (h : decoderOk s) : decoderOk t := by
  cases e with
  | decoded _ run => exact decoderOk_decConsume (s := ringPop s) (ringFront s) h run
  | cleared => exact decoderOk_of_cleared ⟨rfl, rfl, rfl, rfl, rfl, rfl, rfl, rfl⟩
  | failed => exact decoderOk_of_cleared ⟨rfl, rfl, rfl, rfl, rfl, rfl, rfl, rfl⟩
  | reinitialised => exact decoderOk_of_cleared ⟨rfl, rfl, rfl, rfl, rfl, rfl, rfl, rfl⟩
  | stored sp => cases sp <;> exact h
  | sent cmd sp n =>
    obtain ⟨-, -, decoder, -, -, cfg, -⟩ := encodeAndSend_keeps cmd sp n s
    exact decoderOk_congr h cfg decoder
  | _ => exact h

theorem Effect.keeps_inv {s t : State} (e : Effect s t) (h : Inv s) : Inv t := by
  obtain ⟨ring, memory, decoder, session⟩ := (inv_iff s).1 h
  exact (inv_iff t).2 ⟨e.keeps_ringOk ring, e.keeps_memoryOk ring memory decoder,
    e.keeps_decoderOk decoder, e.keeps_sessionOk session⟩

/-- The reset state of any parameters that meet R8. -/
theorem inv_resetWith {p : Params} (ok : p.ok = true) : Inv (State.resetWith p) := by
  have positive : 0 < p.rbCap := by
    obtain ⟨two, -⟩ := params_of_ok ok
    omega
  refine (inv_iff _).2 ⟨⟨ok, positive, positive⟩, ?_, decoderOk_of_cleared (decoderCleared_resetWith p),
    sessionOk_of_stopped rfl rfl fun inError => nomatch inError⟩
  exact ⟨rfl, rfl, rfl, rfl, rfl, rfl, rfl, rfl, Nat.zero_le _⟩

/-- The parameters of the implementation meet R8, whatever the constants behind them are. -/
theorem params_ok : Config.params.ok = true := by
  have seq : Config.seqFirst ≠ Config.seqNext := by
    unfold Config.seqNext
    split
    · generalize Config.seqFirst = n
      revert n
      decide
    · rename_i differ
      exact Ne.symm differ
  simp [Params.ok, Config.params, seq]

theorem inv_hardwareReset {s : State} (h : Inv s) : Inv (hardwareReset s) := by
  obtain ⟨ring, memory, idle, err, length, timer, cause⟩ := inv_resetWith h.ring.1
  exact ⟨ring, memory, idle, err, length, timer, cause⟩

/-- Settles O15: every effect keeps each part of the invariant, and a hardware reset sets it up again. -/
theorem stepKeepsInv : Obligations.StepKeepsInv := by
  intro s t h hstep
  rcases step_effects hstep with ⟨rest, rfl⟩ | effects
  · exact inv_hardwareReset ((Effect.awaited rest s).keeps_inv h)
  · exact effects.keeps (fun _ _ e => e.keeps_inv) h

/-! ## What has been written -/

/-- Every slot that holds a queued byte has been written (R22). -/
def ringWritten (s : State) : Prop := ∀ k, k < ringCount s → (s.rb.read (slot s k)).isSome = true

/-- Every payload byte taken has been written, whether the frame is complete or not (R30). -/
def payloadWritten (s : State) : Prop :=
  6 ≤ s.decState.code.toNat → s.decState.code.toNat ≤ 10 →
    ∀ k, k < s.decCursor.toNat → (s.rxp.read k).isSome = true

theorem written_iff (s : State) : Written s ↔ ringWritten s ∧ payloadWritten s :=
  ⟨fun ⟨ring, payload⟩ => ⟨ring, payload⟩, fun ⟨ring, payload⟩ => ⟨ring, payload⟩⟩

theorem ringWritten_congr {s t : State} (h : ringWritten s) (cfg : t.cfg = s.cfg) (ring : sameRing s t)
    (storage : t.rb = s.rb) : ringWritten t := by
  obtain ⟨rd, wr⟩ := ring
  simpa only [ringWritten, ringCount, slot, cfg, rd, wr, storage] using h

theorem payloadWritten_congr {s t : State} (h : payloadWritten s) (st : t.decState = s.decState)
    (cursor : t.decCursor = s.decCursor) (storage : t.rxp = s.rxp) : payloadWritten t := by
  simpa only [payloadWritten, st, cursor, storage] using h

/-- Nothing is unwritten before the payload. -/
theorem payloadWritten_of_none {s : State} (h : s.decState.code.toNat < 6 ∨ s.decCursor = 0) :
    payloadWritten s := by
  intro six _ k hk
  rcases h with early | zero
  · omega
  · simp [zero] at hk

theorem Memory.isSome_read_write {m : Memory} {i j : Nat} (v : Byte)
    (h : j = i ∨ (m.read j).isSome = true) : ((Memory.write m i v).read j).isSome = true := by
  by_cases same : j = i
  · rw [same, Memory.read_write_same]
    rfl
  · rw [Memory.read_write_other m v same]
    exact h.resolve_left same

theorem ringWritten_ringPush {s : State} (ok : ringOk s) (room : ringFull s = false) (b : Byte)
    (h : ringWritten s) : ringWritten (ringPush b s) := by
  intro k hk
  rw [ringCount_ringPush ok room] at hk
  have storage : (ringPush b s).rb = s.rb.write s.rbWr b := rfl
  rw [storage]
  refine Memory.isSome_read_write b ?_
  rcases Nat.lt_succ_iff_lt_or_eq.1 hk with old | rfl
  · exact .inr (h k old)
  · exact .inl (slot_ringCount ok)

theorem ringWritten_ringPop {s : State} (ok : ringOk s) (byte : ringEmpty s = false) (h : ringWritten s) :
    ringWritten (ringPop s) := by
  intro k hk
  rw [slot_ringPop, ringPop_rb]
  exact h (k + 1) (by have := ringCount_ringPop ok byte; omega)

/-- A byte behind the payload leaves the payload as it is. -/
theorem payloadWritten_of_same {s t : State} (h : payloadWritten s) (behind : payloadComplete s.decState = true)
    (cursor : t.decCursor = s.decCursor) (storage : t.rxp = s.rxp) : payloadWritten t := by
  simp only [payloadComplete, Bool.and_eq_true, decide_eq_true_eq] at behind
  intro _ _
  rw [cursor, storage]
  exact h (by omega) behind.2

theorem payloadWritten_decPayload {s : State} (b : Byte) (hstate : s.decState = .lengthLowRead)
    (h : payloadWritten s) : payloadWritten (decPayload b s) := by
  have before := h (by rw [hstate]; decide) (by rw [hstate]; decide)
  have storage : (decPayload b s).rxp = s.rxp.write s.decCursor.toNat b := by
    simpa [State.mem, hstate, decConsume_payload b hstate] using decConsume_mem b s .rxp
  have cursor : (decPayload b s).decCursor = s.decCursor + 1 := by rw [decPayload_eq]
  intro _ _ k hk
  rw [cursor] at hk
  rw [storage]
  refine Memory.isSome_read_write b ?_
  by_cases last : k = s.decCursor.toNat
  · exact .inl last
  · exact .inr (before k (by bv_omega))

theorem payloadWritten_decConsume {s : State} (b : Byte) (run : s.decState.terminal = false)
    (h : payloadWritten s) : payloadWritten (decConsume b s) := by
  have header (st : s.decState = .frameMarkerRead ∨ s.decState = .destinationRead ∨
      s.decState = .sourceRead ∨ s.decState = .commandRead) : payloadWritten (decConsume b s) := by
    refine payloadWritten_of_none (.inl ?_)
    rw [decConsume_header b (by tauto)]
    rcases st with hs | hs | hs | hs <;> simp [hs, DecState.advance, DecState.code]
  cases hs : s.decState
  case noFrame =>
    by_cases marker : b = s.cfg.frameMarker
    · rw [marker, decConsume_marker hs]
      exact payloadWritten_of_none (.inl (by simp [DecState.code]))
    · rwa [decConsume_stray hs marker]
  case frameMarkerRead | destinationRead | sourceRead | commandRead => exact header (by simp [hs])
  case lengthHighRead =>
    rw [decConsume_lengthLow b hs, decLengthLow_eq]
    exact payloadWritten_of_none (.inr rfl)
  case lengthLowRead =>
    rw [decConsume_payload b hs]
    exact payloadWritten_decPayload b hs h
  case payloadRead =>
    rw [decConsume_header b (by simp [hs])]
    exact payloadWritten_of_same h (by rw [hs]; decide) (by simp) (by simp)
  case paddingRead | evenChecksumRead =>
    rw [decConsume_checksum b (by simp [hs])]
    exact payloadWritten_of_same h (by rw [hs]; decide) rfl rfl
  case ready | error => simp [hs, DecState.terminal] at run

theorem Effect.keeps_written {s t : State} (e : Effect s t) (ok : ringOk s) (h : Written s) : Written t := by
  rw [written_iff] at h ⊢
  obtain ⟨ring, payload⟩ := h
  cases e with
  | pushed b _ room => exact ⟨ringWritten_ringPush ok room b ring, payload⟩
  | popped _ byte => exact ⟨ringWritten_ringPop ok byte ring, payload⟩
  | emptied => exact ⟨fun k hk => absurd hk (by simp [ringCount]), payload⟩
  | decoded _ run byte =>
    refine ⟨?_, payloadWritten_decConsume (s := ringPop s) (ringFront s) run payload⟩
    obtain ⟨_, _, _, _, _, _, _, _, _, frame⟩ := decConsume_frame (ringFront s) (ringPop s)
    rw [frame]
    exact ringWritten_ringPop ok byte ring
  | cleared => exact ⟨ring, payloadWritten_of_none (.inr rfl)⟩
  | failed => exact ⟨ring, payloadWritten_of_none (.inr rfl)⟩
  | reinitialised => exact ⟨ring, payloadWritten_of_none (.inr rfl)⟩
  | stored sp i b _ transmit =>
    cases sp with
    | rb => cases transmit
    | rxp => cases transmit
    | txp => exact ⟨ring, payload⟩
    | ackb => exact ⟨ring, payload⟩
  | sent cmd sp n _ transmit =>
    obtain ⟨-, ringSame, decoder, -, -, cfg, -⟩ := encodeAndSend_keeps cmd sp n s
    have kept : ∀ sp', sp' ≠ sp → (encodeAndSend cmd sp n s).mem sp' = s.mem sp' := by
      intro sp' other
      rw [encodeAndSend_mem, if_neg fun marked => other marked.2]
    have notRb : Space.rb ≠ sp := by rintro rfl; cases transmit
    have notRxp : Space.rxp ≠ sp := by rintro rfl; cases transmit
    exact ⟨ringWritten_congr ring cfg ringSame (kept .rb notRb),
      payloadWritten_congr payload decoder.1 decoder.2.2.2.2.1 (kept .rxp notRxp)⟩
  | _ => exact ⟨ring, payload⟩

/-- With the ring empty and no frame begun nothing has to have been written. -/
theorem written_of_empty {s : State} (ring : ringCount s = 0) (decoder : s.decCursor = 0) : Written s :=
  (written_iff s).2 ⟨fun k hk => by omega, payloadWritten_of_none (.inr decoder)⟩

/-- Settles O14: reset is a state of `inv_resetWith`, with nothing queued and no frame begun. -/
theorem invariantsHoldAtReset : Obligations.InvariantsHoldAtReset :=
  ⟨inv_resetWith params_ok, written_of_empty (by simp [ringCount, State.reset, State.resetWith]) rfl⟩

/-- Settles O16: the two parts of `Written` under each effect, and a ring without bytes after a reset. -/
theorem stepKeepsWritten : Obligations.StepKeepsWritten := by
  intro s t inv h hstep
  rcases step_effects hstep with ⟨rest, rfl⟩ | effects
  · exact written_of_empty (by simp [ringCount, hardwareReset, State.resetWith]) rfl
  · have both := effects.keeps (P := fun u => Inv u ∧ Written u)
      (fun _ _ e hu => ⟨e.keeps_inv hu.1, e.keeps_written hu.1.ring hu.2⟩) ⟨inv, h⟩
    exact both.2

end Sys2Proof.Machine
end

section
/-! What the decoder makes of a sequence of bytes (spec/41_decoder.md R121 to R137, spec/20_memory.md R71). -/

namespace Sys2Proof.Machine

/-! ## The decoder looks at nothing outside itself -/

/-- Two states that the decoder cannot tell apart. -/
def decodeAlike (s t : State) : Prop := t.cfg = s.cfg ∧ sameDecoder s t ∧ t.rxp = s.rxp

theorem accumulate_alike (b : Byte) {s t : State} (h : decodeAlike s t) :
    decodeAlike (accumulate b s) (accumulate b t) := by
  obtain ⟨cfg, ⟨st, count, even, odd, cursor, err, cmd, len⟩, rxp⟩ := h
  simp [decodeAlike, sameDecoder, accumulate_eq, cfg, st, count, even, odd, cursor, err, cmd, len, rxp]

theorem decConsume_alike (b : Byte) {s t : State} (h : decodeAlike s t) :
    decodeAlike (decConsume b s) (decConsume b t) := by
  obtain ⟨cfg, ⟨st, count, even, odd, cursor, err, cmd, len⟩, rxp⟩ := id h
  obtain ⟨-, ⟨-, count', even', odd', -⟩, -⟩ := accumulate_alike b h
  have acfg : (accumulate b t).cfg = (accumulate b s).cfg := (accumulate_alike b h).1
  cases hs : s.decState
  case noFrame =>
    simp only [decConsume, hs, st, cfg]
    split
    · simp [decodeAlike, sameDecoder, acfg, count', even', odd', cursor, err, cmd, len, rxp]
    · exact h
  case lengthHighRead =>
    simp [decodeAlike, sameDecoder, decConsume_lengthLow, decLengthLow_eq, *]
  case lengthLowRead =>
    simp [decodeAlike, sameDecoder, decConsume_payload, decPayload_eq, memWrite, State.setMem, State.mem, *]
  case paddingRead | evenChecksumRead =>
    simp [decodeAlike, sameDecoder, decConsume_checksum, expectedChecksum, *]
  all_goals simp [decodeAlike, sameDecoder, decConsume, *]

theorem decFeed_nil (s : State) : decFeed [] s = s := rfl

theorem decFeed_cons (b : Byte) (bs : List Byte) (s : State) : decFeed (b :: bs) s = decFeed bs (decConsume b s) :=
  rfl

theorem decFeed_append (bs cs : List Byte) (s : State) : decFeed (bs ++ cs) s = decFeed cs (decFeed bs s) :=
  List.foldl_append

theorem decFeed_alike (bs : List Byte) {s t : State} (h : decodeAlike s t) :
    decodeAlike (decFeed bs s) (decFeed bs t) := by
  induction bs generalizing s t with
  | nil => exact h
  | cons b bs ih => exact ih (decConsume_alike b h)

theorem decodeAlike_refl (s : State) : decodeAlike s s := ⟨rfl, ⟨rfl, rfl, rfl, rfl, rfl, rfl, rfl, rfl⟩, rfl⟩

theorem decodeAlike_trans {s t u : State} (h : decodeAlike s t) (h' : decodeAlike t u) : decodeAlike s u := by
  obtain ⟨cfg, ⟨st, count, even, odd, cursor, err, cmd, len⟩, rxp⟩ := h
  obtain ⟨cfg', ⟨st', count', even', odd', cursor', err', cmd', len'⟩, rxp'⟩ := h'
  exact ⟨cfg'.trans cfg, ⟨st'.trans st, count'.trans count, even'.trans even, odd'.trans odd,
    cursor'.trans cursor, err'.trans err, cmd'.trans cmd, len'.trans len⟩, rxp'.trans rxp⟩

/-- The producer touches nothing that the decoder looks at. -/
theorem decodeAlike_rbWriteOp (b : Byte) (s : State) : decodeAlike s (rbWriteOp b s) := by
  obtain ⟨_, _, _, h⟩ := rbWriteOp_frame b s
  rw [h]
  exact decodeAlike_refl s

/-- A byte taken from the ring is consumed as if it came by itself. -/
theorem decodeAlike_taken (b : Byte) (s : State) :
    decodeAlike (decConsume b s) (renewRx (decConsume b (ringPop s))) :=
  decConsume_alike b (t := ringPop s) (decodeAlike_refl s)

/-- In a terminal state bytes are ignored (R133). -/
theorem decFeed_of_terminal (bs : List Byte) {s : State} (h : s.decState.terminal = true) : decFeed bs s = s := by
  induction bs with
  | nil => rfl
  | cons b bs ih =>
    have ignored : decConsume b s = s := by
      rcases terminal_cases h with hs | hs <;> simp [decConsume, hs]
    rw [decFeed_cons, ignored, ih]

/-- Bytes that leave the decoder running leave it running all the way. -/
theorem terminal_decFeed_take {bs : List Byte} {s : State} (h : (decFeed bs s).decState.terminal = false) (k : Nat) :
    (decFeed (bs.take k) s).decState.terminal = false := by
  by_contra ended
  rw [Bool.not_eq_false] at ended
  rw [← List.take_append_drop k bs, decFeed_append, decFeed_of_terminal _ ended, ended] at h
  exact absurd h (by decide)

/-! ## Bytes queued while the decoder runs -/

theorem ringOk_decStepOp {s : State} (ok : ringOk s) : ringOk (decStepOp s).1 :=
  (decStepOp_effects s).keeps (fun _ _ e => e.keeps_ringOk) ok

/-- Consuming a byte does not touch the ring. -/
theorem queued_decConsume (b : Byte) (s : State) : queued (renewRx (decConsume b s)) = queued s := by
  obtain ⟨_, _, _, _, _, _, _, _, _, frame⟩ := decConsume_frame b s
  rw [frame]
  exact queued_congr rfl rfl rfl fun _ => rfl

/-- Settles O39, by induction on the operations: a write lengthens the queue, a step takes its front. -/
theorem decoderIgnoresChunking : Obligations.DecoderIgnoresChunking := by
  suffices alike : ∀ (ops : List RxOp) (s : State), ringOk s →
      ∃ taken, queued s ++ accepted ops s = taken ++ queued (runRx ops s) ∧
        decodeAlike (decFeed taken s) (runRx ops s) by
    intro ops s ok
    obtain ⟨taken, stream, -, decoder, rxp⟩ := alike ops s ok
    exact ⟨taken, stream, decoder, rxp⟩
  intro ops
  induction ops with
  | nil =>
    intro s ok
    exact ⟨[], by simp [accepted, runRx], decodeAlike_refl s⟩
  | cons op ops ih =>
    intro s ok
    cases op with
    | write b =>
      obtain ⟨taken, stream, alike⟩ := ih (rbWriteOp b s) (ringOk_rbWriteOp ok b)
      refine ⟨taken, ?_, decodeAlike_trans (decFeed_alike taken (decodeAlike_rbWriteOp b s)) alike⟩
      rw [queued_rbWriteOp ok, List.append_assoc] at stream
      exact stream
    | step =>
      rcases decStepOp_cases s with ⟨-, h⟩ | ⟨-, -, h⟩ | ⟨-, byte, h⟩
      · obtain ⟨taken, stream, alike⟩ := ih s ok
        exact ⟨taken, by simpa [accepted, runRx, h] using stream, by simpa [runRx, h] using alike⟩
      · obtain ⟨taken, stream, alike⟩ := ih s ok
        exact ⟨taken, by simpa [accepted, runRx, h] using stream, by simpa [runRx, h] using alike⟩
      · obtain ⟨taken, stream, alike⟩ := ih (decStepOp s).1 (ringOk_decStepOp ok)
        refine ⟨ringFront s :: taken, ?_, ?_⟩
        · rw [h, queued_decConsume] at stream
          rw [queued_ringPop ok byte]
          simpa [accepted, runRx, h] using stream
        · have front := decFeed_alike taken (decodeAlike_taken (ringFront s) s)
          rw [h] at alike
          rw [runRx, h]
          exact decodeAlike_trans front alike

/-! ## The parts of a frame -/

/-- The checksums and the count are those of these bytes (R122). -/
def summed (bs : List Byte) (s : State) : Prop :=
  s.decCount = BitVec.ofNat 16 bs.length ∧ (s.decCkEven, s.decCkOdd) = parityXor bs

theorem summed_accumulate {bs : List Byte} {s : State} (b : Byte) (h : summed bs s) :
    summed (bs ++ [b]) (accumulate b s) := by
  obtain ⟨count, sums⟩ := h
  obtain ⟨even, odd⟩ := Prod.mk.inj sums
  have bit : s.decCount.getLsbD 0 = true ↔ bs.length % 2 = 1 := by
    rw [getLsbD_zero_iff, count, BitVec.toNat_ofNat]
    omega
  rw [accumulate_eq]
  refine ⟨?_, ?_⟩
  · simp [count, BitVec.ofNat_add]
  · simp only [bit, parityXor_append]
    rcases Nat.mod_two_eq_zero_or_one bs.length with h | h <;> simp [h, parityXor, even, odd]

/-- The decoder has read these bytes of a frame and is in this state, nothing having failed. -/
structure MidFrame (p : Params) (body : List Byte) (cmd : Byte) (len : Half) (st : DecState) (s : State) :
    Prop where
  cfg : s.cfg = p
  state : s.decState = st
  sums : summed body s
  command : s.rxCommand = cmd
  length : s.rxLength = len
  clear : s.decErr = .none

theorem midFrame_accumulated {p : Params} {body : List Byte} {cmd : Byte} {len : Half} {st st' : DecState}
    {s : State} (h : MidFrame p body cmd len st s) (b : Byte) (cmd' : Byte) (len' : Half) {t : State}
    (cfg : t.cfg = (accumulate b s).cfg) (state : t.decState = st')
    (sums : t.decCount = (accumulate b s).decCount ∧ t.decCkEven = (accumulate b s).decCkEven ∧
      t.decCkOdd = (accumulate b s).decCkOdd)
    (command : t.rxCommand = cmd') (length : t.rxLength = len') (clear : t.decErr = s.decErr) :
    MidFrame p (body ++ [b]) cmd' len' st' t where
  cfg := by rw [cfg, accumulate_eq, h.cfg]
  state := state
  sums := by
    obtain ⟨count, even, odd⟩ := sums
    rw [summed, count, even, odd]
    exact summed_accumulate b h.sums
  command := command
  length := length
  clear := clear.trans h.clear

/-- The states whose byte is accumulated and no more than stored (R124 to R127, R130). -/
theorem midFrame_header {p : Params} {body : List Byte} {cmd : Byte} {len : Half} {st : DecState} {s : State}
    (h : MidFrame p body cmd len st s) (b : Byte)
    (hst : st = .frameMarkerRead ∨ st = .destinationRead ∨ st = .sourceRead ∨ st = .commandRead ∨
      st = .payloadRead) :
    MidFrame p (body ++ [b]) (if st = .sourceRead then b else cmd)
      (if st = .commandRead then lengthOf b 0x00 else len) st.advance (decConsume b s) := by
  rw [decConsume_header b (by rw [h.state]; exact hst), h.state]
  exact midFrame_accumulated h b _ _ rfl rfl ⟨rfl, rfl, rfl⟩ (by rw [h.command]) (by rw [h.length])
    (accumulate_decErr b s)

theorem midFrame_marker {s : State} (h : decoderCleared s) :
    MidFrame s.cfg [s.cfg.frameMarker] 0 0 .frameMarkerRead (decConsume s.cfg.frameMarker s) := by
  obtain ⟨st, count, even, odd, -, err, cmd, len⟩ := h
  have start : MidFrame s.cfg [] 0 0 .noFrame s := ⟨rfl, st, ⟨count, by rw [even, odd]; rfl⟩, cmd, len, err⟩
  rw [decConsume_marker st]
  exact midFrame_accumulated start _ 0 0 rfl rfl ⟨rfl, rfl, rfl⟩ (by simp [cmd]) (by simp [len]) (by simp)

theorem midFrame_lengthLow {p : Params} {body : List Byte} {cmd hi : Byte} {s : State}
    (h : MidFrame p body cmd (lengthOf hi 0x00) .lengthHighRead s) (lo : Byte)
    (inRange : rxLengthOk p (lengthOf hi lo) = true) :
    MidFrame p (body ++ [lo]) cmd (lengthOf hi lo) .lengthLowRead (decConsume lo s) ∧
      (decConsume lo s).decCursor = 0 := by
  have high : s.rxLength.extractLsb' 8 8 = hi := by rw [h.length]; exact lengthHigh_lengthOf hi 0x00
  rw [decConsume_lengthLow lo h.state, decLengthLow_eq, high, h.cfg, inRange]
  exact ⟨midFrame_accumulated h lo _ _ rfl rfl ⟨rfl, rfl, rfl⟩ (by simp [h.command]) rfl rfl, rfl⟩

/-- The six header bytes (R82). -/
def frameHeader (p : Params) (dest src cmd : Byte) (n : Nat) : List Byte :=
  [p.frameMarker, dest, src, cmd, lengthHigh (BitVec.ofNat 16 n), lengthLow (BitVec.ofNat 16 n)]

theorem midFrame_frameHeader {s : State} (h : decoderCleared s) (dest src cmd : Byte) {n : Nat}
    (inRange : rxLengthOk s.cfg (BitVec.ofNat 16 n) = true) :
    MidFrame s.cfg (frameHeader s.cfg dest src cmd n) cmd (BitVec.ofNat 16 n) .lengthLowRead
        (decFeed (frameHeader s.cfg dest src cmd n) s) ∧
      (decFeed (frameHeader s.cfg dest src cmd n) s).decCursor = 0 := by
  have destination := midFrame_header (midFrame_marker h) dest (by simp)
  have source := midFrame_header destination src (by simp [DecState.advance])
  have command := midFrame_header source cmd (by simp [DecState.advance])
  have high := midFrame_header command (lengthHigh (BitVec.ofNat 16 n)) (by simp [DecState.advance])
  have low := midFrame_lengthLow (hi := lengthHigh (BitVec.ofNat 16 n)) high (lengthLow (BitVec.ofNat 16 n))
  rw [lengthOf_high_low] at low
  exact low inRange

/-- What is read after a byte was consumed: the payload byte at the cursor, every other byte as before. -/
theorem memRead_decConsume (b : Byte) (sp : Space) (i : Nat) (s : State) :
    memRead sp i (decConsume b s) =
      if s.decState = .lengthLowRead ∧ sp = .rxp ∧ i = s.decCursor.toNat then b else memRead sp i s := by
  have mem := decConsume_mem b s sp
  have epoch : (decConsume b s).memEpoch = s.memEpoch := by
    obtain ⟨_, _, _, _, _, _, _, _, _, frame⟩ := decConsume_frame b s
    rw [frame]
  by_cases stores : s.decState = .lengthLowRead ∧ sp = .rxp
  · obtain ⟨reading, rfl⟩ := stores
    have written : memRead .rxp i (decConsume b s) = memRead .rxp i (memWrite .rxp s.decCursor.toNat b s) :=
      memRead_congr .rxp i (by rw [mem, if_pos ⟨reading, rfl⟩]; rfl) epoch
    rw [written, memRead_memWrite]
    simp [reading]
  · rw [if_neg fun all => stores ⟨all.1, all.2.1⟩]
    exact memRead_congr sp i (by rw [mem, if_neg stores]) epoch

/-- A payload byte of a frame (R129): one more byte of `RXP`, and after the last one on to padding or checksum. -/
theorem midFrame_payload_byte {p : Params} {body : List Byte} {cmd : Byte} {len : Half} {s : State}
    (h : MidFrame p body cmd len .lengthLowRead s) (b : Byte) :
    MidFrame p (body ++ [b]) cmd len
        (if s.decCursor + 1 = len then if len.toNat % 2 = 1 then .payloadRead else .paddingRead
          else .lengthLowRead) (decConsume b s) ∧
      (decConsume b s).decCursor = s.decCursor + 1 ∧
      memBytes .rxp (s.decCursor.toNat + 1) (decConsume b s) = memBytes .rxp s.decCursor.toNat s ++ [b] := by
  have read : ∀ i, memRead .rxp i (decConsume b s) = if i = s.decCursor.toNat then b else memRead .rxp i s := by
    intro i
    rw [memRead_decConsume]
    simp [h.state]
  refine ⟨?_, ?_, ?_⟩
  · rw [decConsume_payload b h.state, decPayload_eq, h.length, h.state]
    exact midFrame_accumulated h b _ _ (by simp) rfl ⟨by simp, by simp, by simp⟩ (by simp [h.command])
      (by simp [h.length]) (by simp)
  · rw [decConsume_payload b h.state, decPayload_eq]
  · rw [memBytes_succ, read, if_pos rfl]
    refine congrArg (· ++ [b]) (List.map_congr_left fun i hi => ?_)
    rw [read, if_neg (Nat.ne_of_lt (List.mem_range.1 hi))]

/-- The whole payload: `RXP` holds it, and the decoder waits for the padding or the even checksum. -/
theorem midFrame_payload {p : Params} {cmd : Byte} {len : Half} (payload : List Byte) {body : List Byte} {s : State}
    (h : MidFrame p body cmd len .lengthLowRead s) (nonempty : payload ≠ [])
    (fits : s.decCursor.toNat + payload.length = len.toNat) :
    MidFrame p (body ++ payload) cmd len (if len.toNat % 2 = 1 then .payloadRead else .paddingRead)
        (decFeed payload s) ∧
      memBytes .rxp len.toNat (decFeed payload s) = memBytes .rxp s.decCursor.toNat s ++ payload := by
  induction payload generalizing body s with
  | nil => exact absurd rfl nonempty
  | cons b bs ih =>
    simp only [List.length_cons] at fits
    obtain ⟨frame, cursor, stored⟩ := midFrame_payload_byte h b
    have next : (s.decCursor + 1).toNat = s.decCursor.toNat + 1 := by bv_omega
    rw [decFeed_cons]
    cases bs with
    | nil =>
      have last : s.decCursor + 1 = len := BitVec.eq_of_toNat_eq (by rw [next]; simpa using fits)
      rw [if_pos last] at frame
      have count : len.toNat = s.decCursor.toNat + 1 := by simpa using fits.symm
      exact ⟨frame, by rw [count]; exact stored⟩
    | cons c cs =>
      have more : s.decCursor + 1 ≠ len := by
        rintro rfl
        simp only [List.length_cons, next] at fits
        omega
      rw [if_neg more] at frame
      obtain ⟨whole, payloadStored⟩ := ih frame (by simp) (by rw [cursor, next]; omega)
      rw [List.append_assoc] at whole
      rw [cursor, next, stored, List.append_assoc] at payloadStored
      exact ⟨whole, payloadStored⟩

/-- Everything before the checksum pair of a frame: header, payload and, after an odd length, one more byte. -/
theorem midFrame_body {s : State} (h : decoderCleared s) (dest src cmd : Byte) {payload pad : List Byte}
    (inRange : rxLengthOk s.cfg (BitVec.ofNat 16 payload.length) = true) (short : payload.length < 65536)
    (padding : pad.length = payload.length % 2) :
    MidFrame s.cfg (frameHeader s.cfg dest src cmd payload.length ++ payload ++ pad) cmd
        (BitVec.ofNat 16 payload.length) .paddingRead
        (decFeed (frameHeader s.cfg dest src cmd payload.length ++ payload ++ pad) s) ∧
      memBytes .rxp payload.length
        (decFeed (frameHeader s.cfg dest src cmd payload.length ++ payload ++ pad) s) = payload := by
  obtain ⟨header, cursor⟩ := midFrame_frameHeader h dest src cmd inRange
  have len : (BitVec.ofNat 16 payload.length).toNat = payload.length := by
    rw [BitVec.toNat_ofNat, Nat.mod_eq_of_lt short]
  have nonempty : payload ≠ [] := by
    rintro rfl
    simp [rxLengthOk] at inRange
  obtain ⟨whole, stored⟩ := midFrame_payload payload header nonempty (by rw [cursor, len]; simp)
  rw [cursor, len] at stored
  rw [len] at whole
  rw [decFeed_append, decFeed_append]
  match pad, padding with
  | [], even =>
    rw [if_neg (by simp at even; omega)] at whole
    rw [List.append_nil]
    exact ⟨whole, stored⟩
  | [b], odd =>
    rw [if_pos (by simpa using odd.symm)] at whole
    have padded := midFrame_header whole b (by simp)
    rw [List.append_assoc] at padded ⊢
    refine ⟨padded, ?_⟩
    rw [decFeed_cons, decFeed_nil]
    simpa [memBytes, memRead_decConsume, whole.state] using stored
  | _ :: _ :: _, long =>
    simp only [List.length_cons] at long
    omega

/-! ## The checksums -/

/-- A checksum byte accepted: counted, and the next state entered (R131, R132). -/
def acceptChecksum (next : DecState) (s : State) : State :=
  { s with decCount := s.decCount + 1, decState := next }

@[simp] theorem acceptChecksum_decState (next : DecState) (s : State) :
    (acceptChecksum next s).decState = next := rfl
@[simp] theorem acceptChecksum_decErr (next : DecState) (s : State) :
    (acceptChecksum next s).decErr = s.decErr := rfl
@[simp] theorem acceptChecksum_rxCommand (next : DecState) (s : State) :
    (acceptChecksum next s).rxCommand = s.rxCommand := rfl
@[simp] theorem acceptChecksum_rxLength (next : DecState) (s : State) :
    (acceptChecksum next s).rxLength = s.rxLength := rfl
@[simp] theorem memBytes_acceptChecksum (next : DecState) (sp : Space) (n : Nat) (s : State) :
    memBytes sp n (acceptChecksum next s) = memBytes sp n s := by cases sp <;> rfl

theorem decConsume_even_match {s : State} {b : Byte} (hs : s.decState = .paddingRead) (hb : b = s.decCkEven) :
    decConsume b s = acceptChecksum .evenChecksumRead s := by
  rw [decConsume_checksum b (.inl hs), expectedChecksum_even hs, if_pos hb, if_pos hb, hs]
  rfl

theorem decConsume_odd_match {s : State} {b : Byte} (hs : s.decState = .evenChecksumRead) (hb : b = s.decCkOdd) :
    decConsume b s = acceptChecksum .ready s := by
  rw [decConsume_checksum b (.inr hs), expectedChecksum_odd hs, if_pos hb, if_pos hb, hs]
  rfl

theorem decConsume_checksum_differs {s : State} {b : Byte}
    (hs : s.decState = .paddingRead ∨ s.decState = .evenChecksumRead) (hb : b ≠ expectedChecksum s) :
    (decConsume b s).decState = .error ∧ (decConsume b s).decErr = .checksum := by
  simp [decConsume_checksum b hs, hb]

/-- The right checksum bytes (R85): the decoder is `Ready`, with what it has read before them. -/
theorem decFeed_checksums_match {p : Params} {body : List Byte} {cmd : Byte} {len : Half} {s : State}
    (h : MidFrame p body cmd len .paddingRead s) :
    (decFeed [(parityXor body).1] s).decState = .evenChecksumRead ∧
      decFeed [(parityXor body).1, (parityXor body).2] s =
        acceptChecksum .ready (acceptChecksum .evenChecksumRead s) := by
  obtain ⟨even, odd⟩ := Prod.mk.inj h.sums.2
  have first := decConsume_even_match h.state even.symm
  have second := decConsume_odd_match (s := acceptChecksum .evenChecksumRead s) rfl odd.symm
  refine ⟨?_, ?_⟩
  · rw [decFeed_cons, first]
    rfl
  · rw [decFeed_cons, decFeed_cons, first, second, decFeed_nil]

/-- If they are not, it is in `Error` with cause `CHECKSUM` after the first wrong one. -/
theorem decFeed_checksums_differ {p : Params} {body : List Byte} {cmd : Byte} {len : Half} {s : State}
    (h : MidFrame p body cmd len .paddingRead s) {even odd : Byte} (sums : (even, odd) ≠ parityXor body) :
    (decFeed [even, odd] s).decState = .error ∧ (decFeed [even, odd] s).decErr = .checksum := by
  rw [← h.sums.2] at sums
  rw [decFeed_cons]
  by_cases heven : even = s.decCkEven
  · have hodd : odd ≠ s.decCkOdd := fun same => sums (by rw [heven, same])
    rw [decConsume_even_match h.state heven]
    exact decConsume_checksum_differs (s := acceptChecksum .evenChecksumRead s) (.inr rfl) hodd
  · obtain ⟨failed, cause⟩ := decConsume_checksum_differs (s := s) (.inl h.state)
      (by rwa [expectedChecksum_even h.state])
    rw [decFeed_of_terminal _ (by rw [failed]; rfl)]
    exact ⟨failed, cause⟩

/-! ## A whole frame -/

theorem frameBody_eq (p : Params) (dest src cmd : Byte) (payload : List Byte) :
    frameBody p dest src cmd payload =
      frameHeader p dest src cmd payload.length ++ payload ++ paddingOf payload := rfl

/-- The lengths that a frame may have are those that the decoder accepts (R84, R128). -/
theorem rxLengthOk_of_payload {p : Params} (ok : p.ok = true) {payload : List Byte} (nonempty : 1 ≤ payload.length)
    (short : payload.length ≤ p.maxPayload) :
    rxLengthOk p (BitVec.ofNat 16 payload.length) = true ∧ payload.length < 65536 := by
  obtain ⟨-, -, bound, -⟩ := params_of_ok ok
  rw [rxLengthOk_iff, BitVec.toNat_ofNat, Nat.mod_eq_of_lt (by omega)]
  omega

/-- A whole frame leaves a cleared decoder `Ready` with command, length and payload, and only the last byte does. -/
theorem decFeed_frameBytes {s : State} (ok : s.cfg.ok = true) (h : decoderCleared s) (dest src cmd : Byte)
    {payload : List Byte} (nonempty : 1 ≤ payload.length) (short : payload.length ≤ s.cfg.maxPayload) :
    let t := decFeed (frameBytes s.cfg dest src cmd payload) s
    (decFeed (frameBytes s.cfg dest src cmd payload).dropLast s).decState = .evenChecksumRead ∧
      t.decState = .ready ∧ t.rxCommand = cmd ∧ t.rxLength.toNat = payload.length ∧
      memBytes .rxp payload.length t = payload ∧ t.decErr = .none := by
  obtain ⟨inRange, bound⟩ := rxLengthOk_of_payload ok nonempty short
  obtain ⟨body, stored⟩ := midFrame_body h dest src cmd (pad := paddingOf payload) inRange bound (by simp)
  rw [← frameBody_eq] at body stored
  obtain ⟨first, both⟩ := decFeed_checksums_match body
  have front : (frameBytes s.cfg dest src cmd payload).dropLast =
      frameBody s.cfg dest src cmd payload ++ [(parityXor (frameBody s.cfg dest src cmd payload)).1] := by
    rw [frameBytes, List.dropLast_append_of_ne_nil (by simp)]
    rfl
  intro t
  have ht : t = _ := (decFeed_append _ _ s).trans both
  rw [front, decFeed_append, ht]
  simp only [acceptChecksum_decState, acceptChecksum_rxCommand, acceptChecksum_rxLength, acceptChecksum_decErr,
    memBytes_acceptChecksum, body.command, body.length, body.clear, stored, BitVec.toNat_ofNat,
    Nat.mod_eq_of_lt bound, and_true]
  exact first

/-- Settles O37: the emission is a frame, and `decFeed_frameBytes` reads it. -/
theorem decoderReadsBackEmission : Obligations.DecoderReadsBackEmission := by
  intro s cmd payload ok h nonempty short
  rw [emission_eq_frameBytes]
  exact (decFeed_frameBytes ok h s.cfg.addrDest s.cfg.addrSrc cmd nonempty short).2

/-! ## One wrong byte -/

/-- Changing one byte changes one of the two checksums (R137). -/
theorem parityXor_set_ne {bs : List Byte} {k : Nat} {wrong : Byte} (inside : k < bs.length)
    (differs : bs[k]? ≠ some wrong) : parityXor (bs.set k wrong) ≠ parityXor bs := by
  induction bs generalizing k with
  | nil => simp at inside
  | cons b bs ih =>
    cases k with
    | zero =>
      intro same
      have : wrong ^^^ (parityXor bs).2 = b ^^^ (parityXor bs).2 := congrArg Prod.fst same
      exact differs (congrArg some ((BitVec.xor_left_inj _).1 this).symm)
    | succ k =>
      intro same
      obtain ⟨swapped, first⟩ := Prod.mk.inj same
      refine ih (by simpa using inside) (by simpa using differs) (Prod.ext first ?_)
      exact (BitVec.xor_right_inj _).1 swapped

/-- A byte changed in front of the checksum pair, marker and length apart, leaves a header, a payload and a padding
byte of the same lengths. -/
theorem frameBody_set {p : Params} (dest src cmd wrong : Byte) (payload : List Byte) {k : Nat}
    (position : k = 1 ∨ k = 2 ∨ k = 3 ∨ 6 ≤ k) :
    ∃ dest' src' cmd' tail, (frameBody p dest src cmd payload).set k wrong =
        frameHeader p dest' src' cmd' payload.length ++ tail ∧
      tail.length = payload.length + payload.length % 2 := by
  have tailLength : (payload ++ paddingOf payload).length = payload.length + payload.length % 2 := by simp
  rw [frameBody_eq, List.append_assoc]
  rcases position with rfl | rfl | rfl | behind
  · exact ⟨wrong, src, cmd, _, rfl, tailLength⟩
  · exact ⟨dest, wrong, cmd, _, rfl, tailLength⟩
  · exact ⟨dest, src, wrong, _, rfl, tailLength⟩
  · refine ⟨dest, src, cmd, (payload ++ paddingOf payload).set (k - 6) wrong, ?_, by simp⟩
    exact List.set_append_right _ _ behind

/-- Header, as many bytes as the length says and padding, then two bytes that are not their checksums. -/
theorem decFeed_wrong_checksums {s : State} (h : decoderCleared s) {dest src cmd even odd : Byte} {n : Nat}
    {tail : List Byte} (inRange : rxLengthOk s.cfg (BitVec.ofNat 16 n) = true) (bound : n < 65536)
    (tailLength : tail.length = n + n % 2)
    (sums : (even, odd) ≠ parityXor (frameHeader s.cfg dest src cmd n ++ tail)) :
    let t := decFeed (frameHeader s.cfg dest src cmd n ++ tail ++ [even, odd]) s
    t.decState = .error ∧ t.decErr = .checksum := by
  intro t
  have count : (tail.take n).length = n := by
    rw [List.length_take]
    omega
  have body := midFrame_body h dest src cmd (payload := tail.take n) (pad := tail.drop n) (by rwa [count])
    (by rwa [count]) (by rw [List.length_drop, count]; omega)
  rw [count, List.append_assoc, List.take_append_drop] at body
  have ht : t = _ := decFeed_append _ _ s
  rw [ht]
  exact decFeed_checksums_differ body.1 sums

/-- A changed checksum byte is not the one due. -/
theorem checksums_set_ne {c : Byte × Byte} {k : Nat} {wrong : Byte} (h : k < 2)
    (differs : [c.1, c.2][k]? ≠ some wrong) :
    ∃ even odd, [c.1, c.2].set k wrong = [even, odd] ∧ (even, odd) ≠ c := by
  match k with
  | 0 => exact ⟨wrong, c.2, rfl, fun same => differs (congrArg some (congrArg Prod.fst same).symm)⟩
  | 1 => exact ⟨c.1, wrong, rfl, fun same => differs (congrArg some (congrArg Prod.snd same).symm)⟩

/-- Settles O38: a changed byte in front of the checksum pair changes the checksums due, one of the pair those
found. -/
theorem oneWrongByteIsDetected : Obligations.OneWrongByteIsDetected := by
  intro s dest src cmd wrong payload k ok h nonempty short position inside differs
  obtain ⟨inRange, bound⟩ := rxLengthOk_of_payload ok nonempty short
  rw [frameBytes] at inside differs ⊢
  by_cases front : k < (frameBody s.cfg dest src cmd payload).length
  · rw [List.getElem?_append_left front] at differs
    have changed := parityXor_set_ne front differs
    obtain ⟨dest', src', cmd', tail, body, tailLength⟩ := frameBody_set (p := s.cfg) dest src cmd wrong payload position
    rw [List.set_append_left _ _ front]
    rw [body] at changed ⊢
    exact decFeed_wrong_checksums h inRange bound tailLength changed.symm
  · rw [List.getElem?_append_right (Nat.le_of_not_lt front)] at differs
    rw [List.set_append_right _ _ (Nat.le_of_not_lt front)]
    rw [List.length_append, List.length_cons, List.length_cons, List.length_nil] at inside
    have body := (frameBody_eq s.cfg dest src cmd payload).trans (List.append_assoc ..)
    obtain ⟨even, odd, pair, sums⟩ := checksums_set_ne (by omega) differs
    rw [pair]
    rw [body] at sums ⊢
    exact decFeed_wrong_checksums h inRange bound (by simp) sums

/-! ## DEC_STEP without a byte -/

theorem exec_decStep_of_terminal {s : State} (h : s.decState.terminal = true) :
    exec .decStep s = .next (answer .host .ok (s.decState.code.setWidth 16) s) := by
  rcases decStepOp_cases s with ⟨-, taken⟩ | ⟨run, -⟩ | ⟨run, -⟩
  · exact congrArg (fun q => Host.Outcome.next (answer .host .ok (decReturn q.2) q.1)) taken
  · simp [h] at run
  · simp [h] at run

theorem exec_decStep_of_empty {s : State} (run : s.decState.terminal = false) (h : s.rbRd = s.rbWr) :
    exec .decStep s = .next (answer .host .ok noInput s) := by
  rcases decStepOp_cases s with ⟨ended, -⟩ | ⟨-, -, taken⟩ | ⟨-, byte, -⟩
  · simp [run] at ended
  · exact congrArg (fun q => Host.Outcome.next (answer .host .ok (decReturn q.2) q.1)) taken
  · simp [(ringEmpty_iff s).2 h] at byte

/-- Settles O30: the two cases of `DEC_STEP` that take no byte. -/
theorem decStepWithoutByte : Obligations.DecStepWithoutByte := by
  refine fun s => ⟨fun ended => ?_, fun notReady notError empty => ?_⟩
  · have terminal : s.decState.terminal = true := by rcases ended with h | h <;> rw [h] <;> rfl
    exact ⟨_, exec_decStep_of_terminal terminal, onlyAnswered_answer .host .ok _ s⟩
  · have run : s.decState.terminal = false := by
      by_contra ended
      rw [Bool.not_eq_false] at ended
      rcases terminal_cases ended with h | h
      · exact notReady h
      · exact notError h
    exact ⟨_, exec_decStep_of_empty run empty, onlyAnswered_answer .host .ok 0x00FF s⟩

end Sys2Proof.Machine
end

section
/-! The access operations that read registers and buffers (spec/44_access_ops.md). First what each of them makes
of the state, then the statements that are settled with it. -/

namespace Sys2Proof.Machine

/-! ## REG_READ -/

theorem exec_regRead_of_some {n : Byte} {s : State} {v : Half} (h : register n s = some v) :
    exec (.regRead n) s = .next (answer .host .ok v s) := by
  simp only [exec, execRegRead, h]

theorem exec_regRead_of_none {n : Byte} {s : State} (h : register n s = none) :
    exec (.regRead n) s = .next (answer .host .errIndex 0 s) := by
  simp only [exec, execRegRead, h]

/-- The reserved numbers are those above 17 (R50). -/
theorem register_eq_none_iff (n : Byte) (s : State) : register n s = none ↔ 17 < n.toNat := by
  unfold register
  split
  case h_19 =>
    simp only [imp_false, true_iff] at *
    omega
  all_goals
    rename_i number
    simp [number]

theorem lnkFlags_toNat (s : State) :
    (lnkFlags s).toNat = s.tmrArmed.toNat + 2 * s.tmrFired.toNat + 4 * s.synchronized.toNat := by
  unfold lnkFlags
  cases s.tmrArmed <;> cases s.tmrFired <;> cases s.synchronized <;> decide

/-- Settles O42, register by register: the value of the number is the register zero-extended. -/
theorem regReadAnswersTheRegister : Obligations.RegReadAnswersTheRegister := by
  refine ⟨fun st => by cases st <;> rfl, fun e => by cases e <;> rfl, fun st => by cases st <;> rfl,
    fun e => by cases e <;> rfl, fun n s => ?_⟩
  have reserved := register_eq_none_iff n s
  cases h : register n s with
  | none =>
    exact ⟨_, exec_regRead_of_none h, fun _ => onlyAnswered_answer .host .errIndex 0 s,
      fun small => absurd (reserved.1 h) (Nat.not_lt.2 small)⟩
  | some v =>
    have value : ∀ {c : Byte} {w : Half}, n = c → register c s = some w → v = w := by
      rintro c w rfl hw
      exact Option.some.inj (h.symm.trans hw)
    have extended : ∀ {k : Nat} {x : BitVec k}, k ≤ 16 → v = x.setWidth 16 → v.toNat = x.toNat := by
      rintro k x hk rfl
      exact BitVec.toNat_setWidth_of_le hk
    refine ⟨_, exec_regRead_of_some h, fun large => absurd (reserved.2 large) (by simp [h]), fun _ => ⟨v,
      onlyAnswered_answer .host .ok v s, fun c fits => ?_, fun c fits => ?_, fun c fits => ?_,
      fun c => extended (by decide) (value c rfl), fun c => value c rfl,
      fun c => extended (by decide) (value c rfl), fun c => extended (by decide) (value c rfl),
      fun c => value c rfl, fun c => extended (by decide) (value c rfl),
      fun c => extended (by decide) (value c rfl), fun c => value c rfl, fun c => value c rfl,
      fun c => extended (by decide) (value c rfl), fun c => extended (by decide) (value c rfl),
      fun c => extended (by decide) (value c rfl), fun c => extended (by decide) (value c rfl),
      fun c => ?_, fun c => extended (by decide) (value c rfl)⟩⟩
    · rw [value c rfl, ringRegister_toNat 0 fits]
    · rw [value c rfl, ringRegister_toNat 1 fits]
    · rw [length_queued] at fits ⊢
      rw [value c rfl, ringRegister_toNat 17 fits]
    · rw [value c rfl, lnkFlags_toNat]

/-! ## TXB_SETLEN -/

theorem decodeWord_txbSetlen (len : Half) : decodeWord (packWord 0x08 len 0) = .ok (.txbSetlen len) := by
  simp [decodeWord, ifZero]

theorem exec_txbSetlen_of_fits {len : Half} {s : State} (h : len.toNat ≤ s.cfg.maxPayload) :
    exec (.txbSetlen len) s = .next (answer .host .ok 0 { s with txLen := len }) :=
  congrArg Host.Outcome.next (if_pos (decide_eq_true h))

theorem exec_txbSetlen_of_long {len : Half} {s : State} (h : s.cfg.maxPayload < len.toNat) :
    exec (.txbSetlen len) s = .next (answer .host .errLen 0 s) :=
  congrArg Host.Outcome.next (if_neg (by simpa [lengthOk] using h))

/-- Settles O44, by whether the length is in range. -/
theorem txbSetlenSetsTheLength : Obligations.TxbSetlenSetsTheLength := by
  refine ⟨fun len => ⟨decodeWord_txbSetlen len, rfl⟩, fun len s => ?_⟩
  by_cases long : s.cfg.maxPayload < len.toNat
  case pos =>
    exact ⟨_, exec_txbSetlen_of_long long, fun _ => onlyAnswered_answer .host .errLen 0 s,
      fun fits => absurd long (Nat.not_lt.2 fits)⟩
  case neg =>
    have memory : sameMemory s (answer .host .ok 0 { s with txLen := len }) := fun sp i =>
      memRead_congr sp i (by cases sp <;> rfl) rfl
    refine ⟨_, exec_txbSetlen_of_fits (Nat.le_of_not_lt long), fun h => absurd h long, fun _ =>
      ⟨rfl, rfl, rfl, rfl, rfl, memory, ⟨rfl, rfl⟩, ?_, ?_, ?_, ?_⟩⟩
    · simp [sameDecoder]
    · simp [sameSession]
    · simp [sameTimer]
    · simp [sameInputs]

/-! ## TXB_READ and RXB_READ -/

theorem exec_txbRead_of_inside {idx : Half} {s : State} (h : idx.toNat < s.cfg.maxPayload) :
    exec (.txbRead idx) s = .next (answer .host .ok ((memRead .txp idx.toNat s).setWidth 16) s) :=
  congrArg Host.Outcome.next (if_pos ((indexOk_iff _ _).2 h))

theorem exec_txbRead_of_outside {idx : Half} {s : State} (h : ¬idx.toNat < s.cfg.maxPayload) :
    exec (.txbRead idx) s = .next (answer .host .errIndex 0 s) :=
  congrArg Host.Outcome.next (if_neg (mt (indexOk_iff _ _).1 h))

/-- Settles O45, by whether the index is in range; that the byte written is read is `memRead_memWrite`. -/
theorem txbReadReturnsTheByteWritten : Obligations.TxbReadReturnsTheByteWritten := by
  refine ⟨fun idx s => ?_, fun idx b s inside => ?_⟩
  · by_cases inside : idx.toNat < s.cfg.maxPayload
    case pos =>
      exact ⟨_, exec_txbRead_of_inside inside, fun outside => absurd inside (Nat.not_lt.2 outside),
        fun _ => onlyAnswered_answer .host .ok _ s⟩
    case neg =>
      exact ⟨_, exec_txbRead_of_outside inside, fun _ => onlyAnswered_answer .host .errIndex 0 s,
        fun h => absurd h inside⟩
  · have written : memRead .txp idx.toNat (answer .host .ok 0 (memWrite .txp idx.toNat b s)) = b := by
      rw [memRead_answer, memRead_memWrite, if_pos ⟨rfl, rfl⟩]
    refine ⟨_, _, exec_txbWrite_of_indexOk b ((indexOk_iff _ _).2 inside), exec_txbRead_of_inside ?_, ?_⟩
    · simpa using inside
    · rw [written]
      rfl

theorem exec_rxbRead_of_inside {idx : Half} {s : State} (h : idx.toNat < s.cfg.maxPayload) :
    exec (.rxbRead idx) s = .next (answer .host .ok ((rxByte idx s).setWidth 16) s) :=
  congrArg Host.Outcome.next (if_pos ((indexOk_iff _ _).2 h))

theorem exec_rxbRead_of_outside {idx : Half} {s : State} (h : ¬idx.toNat < s.cfg.maxPayload) :
    exec (.rxbRead idx) s = .next (answer .host .errIndex 0 s) :=
  congrArg Host.Outcome.next (if_neg (mt (indexOk_iff _ _).1 h))

/-- Answering changes neither the payload byte nor the free value elsewhere (R66). -/
theorem rxByte_answer (idx : Half) (p : Port) (st : Status) (v : Half) (s : State) :
    rxByte idx (answer p st v s) = rxByte idx s := rfl

/-- Settles O46, by whether the index is in range; the second read is `rxByte_answer`. -/
theorem rxbReadReturnsReceivedBytes : Obligations.RxbReadReturnsReceivedBytes := by
  intro idx s
  by_cases inside : idx.toNat < s.cfg.maxPayload
  case neg =>
    exact ⟨_, exec_rxbRead_of_outside inside, fun _ => onlyAnswered_answer .host .errIndex 0 s,
      fun h => absurd h inside⟩
  case pos =>
    refine ⟨_, exec_rxbRead_of_inside inside, fun outside => absurd inside (Nat.not_lt.2 outside),
      fun _ => ⟨rxByte idx s, onlyAnswered_answer .host .ok _ s, fun six ten before => ?_, ?_⟩⟩
    · exact if_pos (by simp [rxDefined, six, ten, before])
    · have again := exec_rxbRead_of_inside (idx := idx) (s := answer .host .ok ((rxByte idx s).setWidth 16) s) inside
      rw [rxByte_answer] at again
      exact ⟨_, again, onlyAnswered_answer .host .ok _ _⟩

end Sys2Proof.Machine
end

section
/-! The inputs of the producer and of the timer (spec/20_memory.md R68, R70; spec/60_exceptions.md R211): they do
between operations what they do in a gap of a poll. -/

namespace Sys2Proof.Machine

/-! ## An input between two operations -/

/-- An operation word for the producer's port is an `RB_WRITE`, one for the timer's a `TMR_EXPIRE` (R81). -/
theorem decodeWord_port_cases {w : Word} {i : Instr} (h : decodeWord w = .ok i) :
    (∃ b, i = .rbWrite b) ∨ i = .tmrExpire ∨ i.port = .host := by
  obtain ⟨encoded, -⟩ := encode_of_decodeWord Config.params h
  cases i
  case rbWrite b => exact .inl ⟨b, rfl⟩
  case tmrExpire => exact .inr (.inl rfl)
  case wireAck | wirePwronDone | wireData => exact absurd encoded (by simp [encode])
  all_goals exact .inr (.inr rfl)

theorem takeEventWord_of_other {w : Word} (p : Port) (s : State)
    (h : ∀ i, decodeWord w = .ok i → i.port = .host) : takeEventWord p w s = answerIllegal p s := by
  unfold takeEventWord
  split
  · exact absurd (h _ ‹_›) (by simp [Instr.port])
  · exact absurd (h _ ‹_›) (by simp [Instr.port])
  · rfl

/-- A word of the producer or the timer does between two operations what it does in a gap. -/
theorem perform_eventWord {p : Port} (noHost : p ≠ .host) (w : Word) (s : State) :
    perform (actionOfWord p w) s = .next (takeEventWord p w s) := by
  cases h : decodeWord w with
  | error r =>
    rw [actionOfWord_of_not_taken (by simp [h]), takeEventWord_of_other p s (by simp [h])]
    rfl
  | ok i =>
    rcases decodeWord_port_cases h with ⟨b, rfl⟩ | rfl | host
    · cases p <;> simp [actionOfWord, takeEventWord, h, Instr.port, perform, exec_rbWrite] at noHost ⊢
    · cases p <;> simp [actionOfWord, takeEventWord, h, Instr.port, perform, exec, execTmrExpire] at noHost ⊢
    · have onlyHost : ∀ j, decodeWord w = .ok j → j.port = .host := by
        intro j hj
        cases h.symm.trans hj
        exact host
      rw [actionOfWord_of_not_taken fun j hj => (onlyHost j hj).symm ▸ noHost.symm,
        takeEventWord_of_other p s onlyHost]
      rfl

/-- Bytes on the line are queued one by one, whether or not they are a frame (R61, R89). -/
theorem perform_frame (bs : List Byte) (s : State) : perform (actionOfFrame s.cfg bs) s = .next (feed bs s) := by
  cases h : decodeFrame s.cfg bs with
  | error r => simp [actionOfFrame, h, perform]
  | ok i =>
    have encoded : encode s.cfg i = .frame bs := (encodeOfDecodeIsIdentity s.cfg (.frame bs) i h).1
    rw [actionOfFrame_of_ok h]
    exact exec_of_encode_frame encoded

/-- The state with other inputs still to come. -/
def awaiting (rs : List Request) (s : State) : State := { s with requests := rs }

theorem step_eventWord {s : State} {p : Port} {w : Word} {slot : Option Nat} {rest : List Request}
    (noHost : p ≠ .host) (next : s.requests = .word p w slot :: rest) :
    step s = .next (takeEventWord p w (awaiting rest s)) := by
  rw [step_of_cons next]
  exact perform_eventWord noHost w (awaiting rest s)

theorem step_frame {s : State} {bs : List Byte} {slot : Option Nat} {rest : List Request}
    (next : s.requests = .frame bs slot :: rest) : step s = .next (feed bs (awaiting rest s)) := by
  rw [step_of_cons next]
  exact perform_frame bs (awaiting rest s)

/-! ## Confinement -/

theorem takeEventWord_producer_cases (w : Word) (s : State) :
    (∃ b, takeEventWord .producer w s = feed [b] s) ∨
      takeEventWord .producer w s = answerIllegal .producer s := by
  unfold takeEventWord
  split
  · exact .inl ⟨_, if_pos rfl⟩
  · exact .inr (if_neg (by decide))
  · exact .inr rfl

theorem takeEventWord_timer_cases (w : Word) (s : State) :
    takeEventWord .timer w s = tmrExpireOp s ∨ takeEventWord .timer w s = answerIllegal .timer s := by
  unfold takeEventWord
  split
  · exact .inr (if_neg (by decide))
  · exact .inl (if_pos rfl)
  · exact .inr rfl

/-- What is queued stays queued, in order, in front of what arrives. -/
theorem queued_prefix_feed (bs : List Byte) {s : State} (ok : ringOk s) : queued s <+: queued (feed bs s) := by
  rw [queued_feed bs ok]
  refine List.prefix_take_iff.2 ⟨List.prefix_append .., ?_⟩
  have := ringCount_lt ok
  rw [length_queued]
  omega

/-- The producer's confinement, for what several bytes do. -/
theorem onlyQueued_awaiting_feed (bs : List Byte) (rest : List Request) (s : State) :
    onlyQueued (awaiting rest s) (feed bs (awaiting rest s)) ∧
      (ringOk s → queued s <+: queued (feed bs (awaiting rest s))) :=
  ⟨onlyQueued_feed bs _, fun ok => queued_prefix_feed bs (s := awaiting rest s) ok⟩

theorem onlyQueued_answerIllegal (p : Port) (s : State) :
    onlyQueued s (answerIllegal p s) ∧ queued (answerIllegal p s) = queued s :=
  ⟨onlyQueued_update s s.rb s.rbWr _, queued_answer ..⟩

/-- Settles O23: an input of the producer is a feed or a refusal, one of the timer an expiry or a refusal. -/
theorem otherContextsAreConfined : Obligations.OtherContextsAreConfined := by
  intro s t rest w bs slot hstep
  constructor
  · intro next
    suffices confined : onlyQueued (awaiting rest s) t ∧ (ringOk s → queued s <+: queued t) by
      obtain ⟨⟨rd, others⟩, behind⟩ := confined
      exact ⟨rd, behind, others⟩
    rcases next with next | next
    · rw [step_eventWord (by decide) next] at hstep
      obtain rfl := Host.Outcome.next.inj hstep
      rcases takeEventWord_producer_cases w (awaiting rest s) with ⟨b, h⟩ | h <;> rw [h]
      · exact onlyQueued_awaiting_feed [b] rest s
      · obtain ⟨only, same⟩ := onlyQueued_answerIllegal .producer (awaiting rest s)
        exact ⟨only, fun _ => by rw [same]; exact List.prefix_rfl⟩
    · rw [step_frame next] at hstep
      obtain rfl := Host.Outcome.next.inj hstep
      exact onlyQueued_awaiting_feed bs rest s
  · intro next
    rw [step_eventWord (by decide) next] at hstep
    obtain rfl := Host.Outcome.next.inj hstep
    rcases takeEventWord_timer_cases w (awaiting rest s) with h | h <;> rw [h]
    · have memory : sameMemory s (tmrExpireOp (awaiting rest s)) := by
        intro sp i
        rw [tmrExpireOp_eq]
        exact memRead_congr sp i (by cases sp <;> rfl) rfl
      rw [tmrExpireOp_eq] at memory ⊢
      refine ⟨⟨rfl, rfl⟩, ⟨rfl, rfl, rfl, rfl, rfl, rfl, rfl, rfl⟩, ⟨rfl, rfl, rfl, rfl⟩, rfl, fun fired => ?_, rfl,
        ⟨rfl, rfl, rfl, rfl⟩, memory, ⟨rfl, rfl, rfl⟩⟩
      exact Bool.or_eq_true _ _ ▸ .inl fired
    · exact ⟨⟨rfl, rfl⟩, ⟨rfl, rfl, rfl, rfl, rfl, rfl, rfl, rfl⟩, ⟨rfl, rfl, rfl, rfl⟩, rfl, id, rfl,
        ⟨rfl, rfl, rfl, rfl⟩, fun sp i => memRead_congr sp i (by cases sp <;> rfl) rfl, ⟨rfl, rfl, rfl⟩⟩

/-! ## An input in a gap -/

theorem rbWriteOp_awaiting (b : Byte) (rs : List Request) (s : State) :
    rbWriteOp b (awaiting rs s) = awaiting rs (rbWriteOp b s) := by
  unfold rbWriteOp
  rw [show ringFull (awaiting rs s) = ringFull s from rfl]
  split <;> rfl

theorem feed_awaiting (bs : List Byte) (rs : List Request) (s : State) :
    feed bs (awaiting rs s) = awaiting rs (feed bs s) := by
  induction bs generalizing s with
  | nil => rfl
  | cons b bs ih => rw [feed_cons, rbWriteOp_awaiting, ih, feed_cons]

theorem takeEventWord_awaiting (p : Port) (w : Word) (rs : List Request) (s : State) :
    takeEventWord p w (awaiting rs s) = awaiting rs (takeEventWord p w s) := by
  unfold takeEventWord
  split
  · split
    · exact rbWriteOp_awaiting _ rs s
    · rfl
  · split
    · rw [tmrExpireOp_eq, tmrExpireOp_eq]
      rfl
    · rfl
  · rfl

/-- A gap looks at the list it is given, not at the one in the state. -/
theorem takeEvents_awaiting (rs others : List Request) (s : State) :
    takeEvents rs (awaiting others s) = takeEvents rs s := by
  fun_induction takeEvents rs s with
  | case2 w rest s ih => rw [takeEvents, takeEventWord_awaiting, ih]
  | case3 w rest s ih => rw [takeEvents, takeEventWord_awaiting, ih]
  | case4 bs rest s ih => rw [takeEvents, feed_awaiting, ih]
  | case8 =>
    rw [takeEvents]
    · rfl
    all_goals assumption
  | _ => rfl

/-- An input that falls into the gap is taken as by a step, and the gap goes on with the inputs behind it. -/
theorem gap_of_slot_zero {s : State} {rest : List Request} {w : Word} {bs : List Byte} {r : Request}
    (h : r ∈ [Request.word .producer w (some 0), .word .timer w (some 0), .frame bs (some 0)])
    (next : s.requests = r :: rest) : ∃ t, step s = .next t ∧ t.requests = rest ∧ gap s = gap t := by
  have follows : ∀ (t : State) (e : State → State), t = e (awaiting rest s) →
      (∀ rs u, e (awaiting rs u) = awaiting rs (e u)) → gap s = takeEvents rest (e s) →
      t.requests = rest ∧ gap s = gap t := by
    rintro t e rfl commutes first
    have left : (e (awaiting rest s)).requests = rest := by rw [commutes]; rfl
    exact ⟨left, by rw [first, gap, left, commutes, takeEvents_awaiting]⟩
  simp only [List.mem_cons, List.not_mem_nil, or_false] at h
  rcases h with rfl | rfl | rfl
  · exact ⟨_, step_eventWord (by decide) next, follows _ (takeEventWord .producer w) rfl
      (takeEventWord_awaiting .producer w) (by rw [gap, next, takeEvents])⟩
  · exact ⟨_, step_eventWord (by decide) next, follows _ (takeEventWord .timer w) rfl
      (takeEventWord_awaiting .timer w) (by rw [gap, next, takeEvents])⟩
  · exact ⟨_, step_frame next, follows _ (feed bs) rfl (feed_awaiting bs) (by rw [gap, next, takeEvents])⟩

/-- Without a pending timeout a poll is its first gap and what the pull loop makes of the state behind it. -/
theorem pollOp_of_no_expiry {s : State} (h : s.tmrFired = false) :
    pollOp s =
      pollFinish (pullLoop (pollFuel (gap s)) (gap s)).2 (pullLoop (pollFuel (gap s)) (gap s)).1 := by
  have goesOn : timeoutEnds s = false := by simp [timeoutEnds, h]
  have nothing : consumeExpiry s = s := by simp [consumeExpiry, h]
  simp only [pollOp_eq, goesOn, pulled, nothing, Bool.false_eq_true, if_false]

theorem tmrFired_feed (bs : List Byte) (s : State) : (feed bs s).tmrFired = s.tmrFired := by
  obtain ⟨_, _, _, h⟩ := feed_frame bs s
  rw [h]

theorem tmrFired_takeEventWord_producer (w : Word) (s : State) :
    (takeEventWord .producer w s).tmrFired = s.tmrFired := by
  rcases takeEventWord_producer_cases w s with ⟨b, h⟩ | h <;> rw [h]
  · exact tmrFired_feed [b] s
  · rfl

/-- Settles O24: in a gap an input is taken as by a step; a poll that begins with that gap is a poll after the
step. -/
theorem eventInsidePollActsAsBetweenOperations : Obligations.EventInsidePollActsAsBetweenOperations := by
  intro s rest w bs k
  refine ⟨fun r => gap_of_slot_zero, fun r producer next noExpiry => ?_, fun next => ?_, fun next => ?_,
    fun next => ?_, gap_of_undisturbed s⟩
  · have slot : r ∈ [Request.word .producer w (some 0), .word .timer w (some 0), .frame bs (some 0)] := by
      simp only [List.mem_cons, List.not_mem_nil, or_false] at producer ⊢
      tauto
    obtain ⟨t, hstep, -, sameGap⟩ := gap_of_slot_zero slot next
    have stillNone : t.tmrFired = false := by
      simp only [List.mem_cons, List.not_mem_nil, or_false] at producer
      rcases producer with rfl | rfl
      · rw [step_eventWord (by decide) next] at hstep
        rw [← Host.Outcome.next.inj hstep, tmrFired_takeEventWord_producer]
        exact noExpiry
      · rw [step_frame next] at hstep
        rw [← Host.Outcome.next.inj hstep, tmrFired_feed]
        exact noExpiry
    refine ⟨t, hstep, ?_⟩
    rw [exec_lnkPoll, exec_lnkPoll, pollOp_of_no_expiry noExpiry, pollOp_of_no_expiry stillNone, sameGap]
  all_goals rw [gap, next, takeEvents]

end Sys2Proof.Machine
end

section
/-! The session (spec/10_state.md R41 (f), (g); spec/43_link.md R155): how the operations move it, and the claims
about it. -/

namespace Sys2Proof.Machine

/-! ## Decoder and session as before -/

/-- Decoder and session are as before. -/
abbrev sameLink (s t : State) : Prop := sameDecoder s t ∧ sameSession s t

theorem sameLink_refl (s : State) : sameLink s s := ⟨⟨rfl, rfl, rfl, rfl, rfl, rfl, rfl, rfl⟩, rfl, rfl, rfl, rfl⟩

theorem sameLink_trans {s t u : State} (h : sameLink s t) (h' : sameLink t u) : sameLink s u := by
  obtain ⟨⟨dec, count, even, odd, cursor, err, cmd, len⟩, st, pending, expected, cause⟩ := h
  obtain ⟨⟨dec', count', even', odd', cursor', err', cmd', len'⟩, st', pending', expected', cause'⟩ := h'
  exact ⟨⟨dec'.trans dec, count'.trans count, even'.trans even, odd'.trans odd, cursor'.trans cursor,
    err'.trans err, cmd'.trans cmd, len'.trans len⟩, st'.trans st, pending'.trans pending,
    expected'.trans expected, cause'.trans cause⟩

theorem sameSession_trans {s t u : State} (h : sameSession s t) (h' : sameSession t u) : sameSession s u := by
  obtain ⟨st, pending, expected, cause⟩ := h
  obtain ⟨st', pending', expected', cause'⟩ := h'
  exact ⟨st'.trans st, pending'.trans pending, expected'.trans expected, cause'.trans cause⟩

/-! ## What a poll finds -/

/-- What a gap leaves alone (R211). -/
theorem gap_keeps (s : State) :
    (gap s).cfg = s.cfg ∧ sameLink s (gap s) := by
  obtain ⟨_, _, _, _, _, h⟩ := gap_frame s
  rw [h]
  exact ⟨rfl, sameLink_refl s⟩

theorem consumeExpiry_keeps (s : State) :
    (consumeExpiry s).cfg = s.cfg ∧ sameLink s (consumeExpiry s) := by
  unfold consumeExpiry
  split <;> exact ⟨rfl, sameLink_refl s⟩

/-- The state code that a `DEC_STEP` answers is that of the state it leaves the decoder in (R121). -/
theorem decState_of_decStepOp {s : State} {st : DecState} (h : (decStepOp s).2 = some st) :
    (decStepOp s).1.decState = st := by
  rcases decStepOp_cases s with ⟨-, e⟩ | ⟨-, -, e⟩ | ⟨-, -, e⟩ <;> rw [e] at h ⊢
  · exact Option.some.inj h
  · cases h
  · exact Option.some.inj h

/-- The verdict of the pull loop is a terminal state, and the decoder is in it. -/
theorem pullLoop_verdict {n : Nat} {s : State} {st : DecState} (h : (pullLoop n s).2 = some st) :
    st.terminal = true ∧ (pullLoop n s).1.decState = st := by
  induction n generalizing s with
  | zero => cases h
  | succ n ih =>
    rw [pullLoop_succ] at h ⊢
    split at h
    · rename_i ends
      simp only [ends, if_true]
      have verdict : (decStepOp s).2 = some st := h
      obtain ⟨-, ⟨kept, -⟩, -⟩ := gap_keeps (decStepOp s).1
      exact ⟨by simpa [verdict, endsPull] using ends, kept.trans (decState_of_decStepOp verdict)⟩
    · rename_i goesOn
      simp only [goesOn, Bool.false_eq_true, if_false]
      exact ih h

/-- The pull of a poll leaves parameters and session alone. -/
theorem pulled_keeps (s : State) : (pulled s).1.cfg = s.cfg ∧ sameSession s (pulled s).1 := by
  obtain ⟨cfg, st, -, pending, expected, cause, -⟩ :=
    pullLoop_frame (pollFuel (gap (consumeExpiry s))) (gap (consumeExpiry s))
  obtain ⟨cfg', -, session'⟩ := gap_keeps (consumeExpiry s)
  obtain ⟨cfg'', -, session''⟩ := consumeExpiry_keeps s
  exact ⟨cfg.trans (cfg'.trans cfg''),
    sameSession_trans (sameSession_trans session'' session') ⟨st, pending, expected, cause⟩⟩

/-- A frame that the decoder holds when the poll starts is found as it is, whatever falls into the gaps. -/
theorem pulled_of_terminal {s : State} (h : s.decState.terminal = true) :
    pulled s = (gap (gap (consumeExpiry s)), some s.decState) := by
  obtain ⟨-, ⟨kept, -⟩, -⟩ := gap_keeps (consumeExpiry s)
  obtain ⟨-, ⟨kept', -⟩, -⟩ := consumeExpiry_keeps s
  have state : (gap (consumeExpiry s)).decState = s.decState := kept.trans kept'
  rcases decStepOp_cases (gap (consumeExpiry s)) with ⟨-, e⟩ | ⟨run, -⟩ | ⟨run, -⟩
  · rw [pulled, pollFuel, pullLoop_succ, e, state, endsPull, h]
    rfl
  · simp [state, h] at run
  · simp [state, h] at run

/-- What a poll does with what it has pulled (R159, R162). -/
theorem pollFinish_pulled_cases (s : State) :
    pollFinish (pulled s).2 (pulled s).1 = (pulled s).1 ∨
      pollFinish (pulled s).2 (pulled s).1 = enterError (frameErrorKind (pulled s).1.decErr) (pulled s).1 ∨
      (pulled s).1.decState = .ready ∧ pollFinish (pulled s).2 (pulled s).1 = onFrame (pulled s).1 := by
  cases h : (pulled s).2 with
  | none => exact .inl rfl
  | some st =>
    obtain ⟨ended, state⟩ := pullLoop_verdict h
    rcases terminal_cases ended with rfl | rfl
    · exact .inr (.inr ⟨state, rfl⟩)
    · exact .inr (.inl rfl)

/-! ## How a poll moves the session -/

/-- The moves of the session in a poll (R155, R160, R162 to R167). -/
inductive PollMove (s t : State) : Prop where
  /-- no move -/
  | stays (st : t.lnkState = s.lnkState) (cause : t.lnkErr = s.lnkErr)
  /-- the error entry (R206), which keeps the first cause -/
  | fails (st : t.lnkState = .error) (cause : s.lnkState = .error → t.lnkErr = s.lnkErr)
  /-- power-on completed (R163) -/
  | poweredOn (before : s.lnkState = .waitingForPowerOn) (st : t.lnkState = .ready) (cause : t.lnkErr = s.lnkErr)
      (frame : t.decState = .ready) (cmd : t.rxCommand = s.cfg.pwronDoneCmd) (stopped : t.tmrArmed = false)
  /-- the command acknowledged (R164) -/
  | acknowledged (before : s.lnkState = .waitingForAcknowledge) (st : t.lnkState = .waitingForResponse)
      (cause : t.lnkErr = s.lnkErr)
  /-- the response received (R165) -/
  | responded (before : s.lnkState = .waitingForResponse) (st : t.lnkState = .responseReady)
      (cause : t.lnkErr = s.lnkErr) (frame : t.decState = .ready) (cmd : t.rxCommand = t.lnkExpected)

theorem PollMove.of_same {s u t : State} (cfg : u.cfg = s.cfg) (session : sameSession s u) (h : PollMove u t) :
    PollMove s t := by
  obtain ⟨st, -, -, err⟩ := session
  cases h with
  | stays st' cause => exact .stays (st'.trans st) (cause.trans err)
  | fails st' cause => exact .fails st' fun inError => (cause (st.trans inError)).trans err
  | poweredOn before st' cause frame cmd stopped =>
    exact .poweredOn (st.symm.trans before) st' (cause.trans err) frame (cmd.trans (by rw [cfg])) stopped
  | acknowledged before st' cause => exact .acknowledged (st.symm.trans before) st' (cause.trans err)
  | responded before st' cause frame cmd =>
    exact .responded (st.symm.trans before) st' (cause.trans err) frame cmd

theorem pollMove_enterError (kind : LnkErr) (s : State) : PollMove s (enterError kind s) :=
  .fails rfl fun inError => by simp [enterError_eq, inError]

/-- An acknowledgement sent leaves ring, decoder, session and timer alone (R146). -/
theorem sendAck_keeps (s : State) :
    (sendAck s).results = s.results ∧ sameRing s (sendAck s) ∧ sameDecoder s (sendAck s) ∧
      sameSession s (sendAck s) ∧ sameTimer s (sendAck s) ∧ sameInputs s (sendAck s) :=
  encodeAndSend_keeps s.cfg.ackCmd .ackb 2 (buildAck s)

theorem pollMove_onFrame {s : State} (frame : s.decState = .ready) : PollMove s (onFrame s) := by
  obtain ⟨-, -, ⟨dec, -, -, -, -, -, cmd, -⟩, ⟨st, -, expected, cause⟩, -⟩ := sendAck_keeps s
  unfold onFrame onFrameAcknowledge onFrameResponse
  generalize sendAck s = acked at dec cmd st expected cause
  split
  case h_2 h =>
    unfold onFramePowerOn
    split
    · exact .poweredOn h rfl rfl frame ‹_› rfl
    · exact .stays rfl rfl
  case h_4 h =>
    split
    · split
      · exact .acknowledged h rfl rfl
      · exact pollMove_enterError _ s
    · exact .stays st cause
  case h_5 h =>
    split
    · rename_i awaited
      exact .responded h rfl cause (dec.trans frame) (cmd.trans (awaited.trans expected.symm))
    · exact pollMove_enterError _ s
  all_goals exact .stays rfl rfl

/-- Every poll makes one of these moves, whatever falls into its gaps. -/
theorem pollMove_pollOp (s : State) : PollMove s (pollOp s) := by
  rw [pollOp_eq]
  split
  · exact pollMove_enterError .timeout s
  · obtain ⟨cfg, session⟩ := pulled_keeps s
    refine PollMove.of_same cfg session ?_
    rcases pollFinish_pulled_cases s with h | h | ⟨frame, h⟩ <;> rw [h]
    · exact .stays rfl rfl
    · exact pollMove_enterError _ _
    · exact pollMove_onFrame frame

/-! ## The other instructions -/

/-- The instructions that act on the session or on the decoder. -/
def actsOnLink : Instr → Bool
  | .decStep => true
  | .decReset => true
  | .lnkInit => true
  | .lnkPowerOn => true
  | .lnkPowerOnTx _ => true
  | .lnkSend _ _ => true
  | .lnkPoll => true
  | _ => false

/-- All other instructions leave decoder and session alone. -/
theorem exec_of_not_actsOnLink {i : Instr} {s t : State} (quiet : actsOnLink i = false)
    (h : exec i s = .next t) : sameLink s t := by
  have fed (bs : List Byte) : sameLink s (feed bs s) := by
    obtain ⟨-, decoder, session, -⟩ := onlyQueued_feed bs s
    exact ⟨decoder, session⟩
  have same := sameLink_refl s
  cases i
  case decStep | decReset | lnkInit | lnkPowerOn | lnkPowerOnTx | lnkSend | lnkPoll => cases quiet
  all_goals obtain rfl := Host.Outcome.next.inj h
  case rbWrite b => exact fed [b]
  case wireAck | wirePwronDone | wireData => exact fed _
  case encFrame cmd =>
    split
    · exact same
    · obtain ⟨-, -, decoder, session, -⟩ := encodeAndSend_keeps cmd .txp s.txLen.toNat s
      exact ⟨decoder, session⟩
  case tmrExpire =>
    rw [tmrExpireOp_eq]
    exact same
  case nop | rbClear => exact same
  all_goals
    split <;> exact same

theorem exec_decStep_keeps {s t : State} (h : exec .decStep s = .next t) : sameSession s t := by
  obtain rfl := Host.Outcome.next.inj h
  rcases decStepOp_cases s with ⟨-, e⟩ | ⟨-, -, e⟩ | ⟨-, -, e⟩ <;> rw [e]
  · exact ⟨rfl, rfl, rfl, rfl⟩
  · exact ⟨rfl, rfl, rfl, rfl⟩
  · obtain ⟨-, -, -, session, -⟩ := tookByte_decAnswer s
    exact session

/-- Outside the link operations the session stays (R155). -/
theorem exec_sameSession {i : Instr} {s t : State} (h : exec i s = .next t)
    (quiet : actsOnLink i = false ∨ i = .decStep ∨ i = .decReset) : sameSession s t := by
  rcases quiet with quiet | rfl | rfl
  · exact (exec_of_not_actsOnLink quiet h).2
  · exact exec_decStep_keeps h
  · obtain rfl := Host.Outcome.next.inj h
    exact ⟨rfl, rfl, rfl, rfl⟩

/-! ## LNK_POWER_ON and LNK_SEND -/

theorem exec_lnkPowerOnTx_of_refused {cmd : Byte} {s : State}
    (refused : encodeRefused s.cfg cmd s.txLen.toNat = true) :
    exec (.lnkPowerOnTx cmd) s = .next (answer .host .errLen (lnkValue s.lnkState) s) :=
  congrArg Host.Outcome.next (if_pos refused)

theorem exec_lnkPowerOnTx_of_passed {cmd : Byte} {s : State}
    (passed : ¬encodeRefused s.cfg cmd s.txLen.toNat = true) :
    exec (.lnkPowerOnTx cmd) s = .next (answer .host .ok (lnkValue .waitingForPowerOn) (powerOnTx cmd s)) :=
  congrArg Host.Outcome.next (if_neg passed)

theorem exec_lnkSend_of_refused {cmd : Byte} (exp : Byte) {s : State}
    (refused : encodeRefused s.cfg cmd s.txLen.toNat = true) :
    exec (.lnkSend cmd exp) s = .next (answer .host .errLen (lnkValue s.lnkState) s) :=
  congrArg Host.Outcome.next (if_pos refused)

theorem exec_lnkSend_of_passed {cmd : Byte} (exp : Byte) {s : State}
    (passed : ¬encodeRefused s.cfg cmd s.txLen.toNat = true) :
    exec (.lnkSend cmd exp) s =
      .next (answer .host .ok (lnkValue .waitingForAcknowledge) (sendCommand cmd exp s)) :=
  congrArg Host.Outcome.next (if_neg passed)

/-- The frame of an issue operation, sent after the decoder's reset (R157, R158). -/
def issueFrame (cmd : Byte) (s : State) : State := encodeAndSend cmd .txp s.txLen.toNat (decReset s)

theorem issueFrame_keeps (cmd : Byte) (s : State) :
    (issueFrame cmd s).results = s.results ∧ sameRing s (issueFrame cmd s) ∧ decoderCleared (issueFrame cmd s) ∧
      sameSession s (issueFrame cmd s) ∧ sameTimer s (issueFrame cmd s) ∧ sameInputs s (issueFrame cmd s) :=
  encodeAndSend_keeps cmd .txp s.txLen.toNat (decReset s)

theorem powerOnTx_eq (cmd : Byte) (s : State) :
    powerOnTx cmd s =
      timerStart { issueFrame cmd s with lnkPending := cmd, lnkState := .waitingForPowerOn } := rfl

theorem sendCommand_eq (cmd exp : Byte) (s : State) :
    sendCommand cmd exp s =
      timerStart { issueFrame cmd s with lnkPending := cmd, lnkExpected := exp, lnkState := .waitingForAcknowledge } :=
  rfl

/-- The instructions that issue a command and begin a wait. -/
def issuesCommand : Instr → Bool
  | .lnkPowerOn => true
  | .lnkPowerOnTx _ => true
  | .lnkSend _ _ => true
  | _ => false

/-- They begin the wait, keeping the cause, or refuse and change nothing but the results. -/
theorem exec_issue_cases {i : Instr} {s t : State} (h : exec i s = .next t) (issue : issuesCommand i = true) :
    t.lnkState.waiting = true ∧ t.lnkErr = s.lnkErr ∨ sameLink s t := by
  have refusal (v : Half) : sameLink s (answer .host .errLen v s) := by
    obtain ⟨-, -, decoder, session, -⟩ := onlyAnswered_answer .host .errLen v s
    exact ⟨decoder, session⟩
  have cause (cmd : Byte) : (issueFrame cmd s).lnkErr = s.lnkErr := by
    obtain ⟨-, -, -, ⟨-, -, -, same⟩, -⟩ := issueFrame_keeps cmd s
    exact same
  cases i
  case lnkPowerOn =>
    obtain rfl := Host.Outcome.next.inj h
    exact .inl ⟨rfl, rfl⟩
  case lnkPowerOnTx cmd =>
    by_cases refused : encodeRefused s.cfg cmd s.txLen.toNat = true
    · obtain rfl := Host.Outcome.next.inj ((exec_lnkPowerOnTx_of_refused refused).symm.trans h)
      exact .inr (refusal _)
    · obtain rfl := Host.Outcome.next.inj ((exec_lnkPowerOnTx_of_passed refused).symm.trans h)
      rw [powerOnTx_eq]
      exact .inl ⟨rfl, cause cmd⟩
  case lnkSend cmd exp =>
    by_cases refused : encodeRefused s.cfg cmd s.txLen.toNat = true
    · obtain rfl := Host.Outcome.next.inj ((exec_lnkSend_of_refused exp refused).symm.trans h)
      exact .inr (refusal _)
    · obtain rfl := Host.Outcome.next.inj ((exec_lnkSend_of_passed exp refused).symm.trans h)
      rw [sendCommand_eq]
      exact .inl ⟨rfl, cause cmd⟩
  all_goals cases issue

/-- The instructions by what they can do to the session. -/
theorem instr_cases (i : Instr) :
    (actsOnLink i = false ∨ i = .decStep ∨ i = .decReset) ∨ i = .lnkInit ∨ issuesCommand i = true ∨
      i = .lnkPoll := by
  cases i
  case decStep => exact .inl (.inr (.inl rfl))
  case decReset => exact .inl (.inr (.inr rfl))
  case lnkInit => exact .inr (.inl rfl)
  case lnkPowerOn | lnkPowerOnTx | lnkSend => exact .inr (.inr (.inl rfl))
  case lnkPoll => exact .inr (.inr (.inr rfl))
  all_goals exact .inl (.inl rfl)

/-! ## The claims about the session -/

/-- Settles O20: of the moves of a poll one enters `Ready`, and no other instruction does. -/
theorem readyOnlyByPowerOnCompletion : Obligations.ReadyOnlyByPowerOnCompletion := by
  intro i s t h notReady ready
  rcases instr_cases i with quiet | rfl | issue | rfl
  · exact absurd ((exec_sameSession h quiet).1.symm.trans ready) notReady
  · obtain rfl := Host.Outcome.next.inj h
    cases ready
  · rcases exec_issue_cases h issue with ⟨waits, -⟩ | ⟨-, same, -⟩
    · rw [ready] at waits
      cases waits
    · exact absurd (same.symm.trans ready) notReady
  · obtain rfl := Host.Outcome.next.inj h
    have state : (pollOp s).lnkState = .ready := ready
    cases pollMove_pollOp s with
    | stays st => exact absurd (st.symm.trans state) notReady
    | poweredOn before _ _ frame cmd stopped => exact ⟨rfl, before, frame, cmd, stopped⟩
    | fails st | acknowledged _ st | responded _ st => exact absurd (st.symm.trans state) (by decide)

/-- The contract of R236 leaves no issue operation in `Error`. -/
theorem not_error_of_inContract {i : Instr} {s : State} (issue : issuesCommand i = true) (contract : inContract i s) :
    s.lnkState ≠ .error := by
  cases i
  case lnkPowerOn | lnkPowerOnTx =>
    rw [show s.lnkState = .off from contract]
    decide
  case lnkSend => rcases contract with h | h <;> rw [h] <;> decide
  all_goals cases issue

/-- Settles O18: within the contract the session leaves `Error` by `LNK_INIT` alone, which clears the cause, and
only the error entry records one. -/
theorem causeMeansErrorWithinContract : Obligations.CauseMeansErrorWithinContract := by
  intro i s t contract before h
  rcases instr_cases i with quiet | rfl | issue | rfl
  · obtain ⟨st, -, -, cause⟩ := exec_sameSession h quiet
    rwa [CauseMeansError, st, cause]
  · obtain rfl := Host.Outcome.next.inj h
    exact fun cause => absurd rfl cause
  · have noError := not_error_of_inContract issue contract
    rcases exec_issue_cases h issue with ⟨-, cause⟩ | ⟨-, st, -, -, cause⟩
    · exact fun recorded => absurd (before (cause ▸ recorded)) noError
    · exact fun recorded => absurd (before (cause ▸ recorded)) noError
  · obtain rfl := Host.Outcome.next.inj h
    have others (st : s.lnkState ≠ .error) (cause : (pollOp s).lnkErr = s.lnkErr) :
        (pollOp s).lnkErr ≠ .none → (pollOp s).lnkState = .error :=
      fun recorded => absurd (before (cause ▸ recorded)) st
    cases pollMove_pollOp s with
    | stays st cause => exact fun recorded => st.trans (before (cause ▸ recorded))
    | fails st => exact fun _ => st
    | poweredOn old _ cause | acknowledged old _ cause | responded old _ cause =>
      exact others (by rw [old]; decide) cause

/-- Settles O19: `LNK_INIT` and the issue operations apart, only a poll moves the session, and none of its moves
leaves `Error`. -/
theorem errorIsTerminalUntilReinitialised : Obligations.ErrorIsTerminalUntilReinitialised := by
  intro i s t noInit contract inError h
  rcases instr_cases i with quiet | init | issue | rfl
  · obtain ⟨st, -, -, cause⟩ := exec_sameSession h quiet
    exact ⟨st.trans inError, cause⟩
  · exact absurd init noInit
  · exact absurd inError (not_error_of_inContract issue contract)
  · obtain rfl := Host.Outcome.next.inj h
    cases pollMove_pollOp s with
    | stays st cause => exact ⟨st.trans inError, cause⟩
    | fails st cause => exact ⟨st, cause inError⟩
    | poweredOn before | acknowledged before | responded before => cases before.symm.trans inError

/-- A response held is not touched by a poll, which only stops the timer (R167). -/
theorem pollOp_of_responseHeld {s : State} (held : s.lnkState = .responseReady) (frame : s.decState = .ready) :
    sameLink s (pollOp s) := by
  have goesOn : timeoutEnds s = false := by simp [timeoutEnds, held, LnkState.ignoresTimeout]
  have kept : sameLink s (gap (gap (consumeExpiry s))) :=
    sameLink_trans (sameLink_trans (consumeExpiry_keeps s).2 (gap_keeps _).2) (gap_keeps _).2
  have reached : (gap (gap (consumeExpiry s))).lnkState = .responseReady := kept.2.1.trans held
  have finished : pollOp s = timerStop (gap (gap (consumeExpiry s))) := by
    simp only [pollOp_eq, goesOn, Bool.false_eq_true, if_false, pulled_of_terminal (s := s) (by rw [frame]; rfl),
      frame, pollFinish, onFrame, reached]
  rw [finished]
  exact kept

theorem responseHeld_of_same {s t : State} (same : sameLink s t) (h : ResponseHeld s) : ResponseHeld t := by
  obtain ⟨⟨dec, -, -, -, -, -, cmd, -⟩, st, -, expected, -⟩ := same
  rwa [ResponseHeld, dec, cmd, st, expected]

/-- Settles O17: only the move of a poll that holds the awaited frame enters `ResponseReady`. -/
theorem responseStaysHeld : Obligations.ResponseStaysHeld := by
  intro i s t noReset held h
  rcases instr_cases i with (quiet | rfl | reset) | rfl | issue | rfl
  · exact responseHeld_of_same (exec_of_not_actsOnLink quiet h) held
  · obtain ⟨st, -⟩ := exec_decStep_keeps h
    intro ready
    have terminal : s.decState.terminal = true := by rw [(held (st.symm.trans ready)).1]; rfl
    obtain rfl := Host.Outcome.next.inj ((exec_decStep_of_terminal terminal).symm.trans h)
    exact held ready
  · exact absurd reset noReset
  · obtain rfl := Host.Outcome.next.inj h
    exact fun ready => nomatch ready
  · rcases exec_issue_cases h issue with ⟨waits, -⟩ | same
    · exact fun ready => by rw [ready] at waits; cases waits
    · exact responseHeld_of_same same held
  · obtain rfl := Host.Outcome.next.inj h
    have entered (st : LnkState) (hst : (pollOp s).lnkState = st) (other : st ≠ .responseReady) :
        ResponseHeld (pollAnswer (pollOp s)) := fun ready => absurd (hst.symm.trans ready) other
    cases pollMove_pollOp s with
    | stays st =>
      by_cases ready : s.lnkState = .responseReady
      · exact responseHeld_of_same (t := pollAnswer (pollOp s)) (pollOp_of_responseHeld ready (held ready).1) held
      · exact entered _ st ready
    | responded _ _ _ frame cmd => exact fun _ => ⟨frame, cmd⟩
    | fails st => exact entered _ st (by decide)
    | poweredOn _ st => exact entered _ st (by decide)
    | acknowledged _ st => exact entered _ st (by decide)

end Sys2Proof.Machine
end

section
/-! The link operations (spec/43_link.md): LNK_INIT, LNK_POWER_ON, LNK_SEND, and LNK_POLL with a timeout pending,
without input, and with a frame in the decoder. First what the operations do to transmit state and memories, then
the statements that are settled with it. -/

namespace Sys2Proof.Machine

/-! ## Memories and transmit state -/

theorem sameMemory_of_arrays {s t : State} (rb : t.rb = s.rb) (rxp : t.rxp = s.rxp) (txp : t.txp = s.txp)
    (ackb : t.ackb = s.ackb) (epoch : t.memEpoch = s.memEpoch) : sameMemory s t := by
  intro sp i
  refine memRead_congr sp i ?_ epoch
  cases sp
  case rb => exact rb
  case rxp => exact rxp
  case txp => exact txp
  case ackb => exact ackb

/-- That a frame was sent says nothing about decoder, session, timer and results. -/
theorem sentFrame_of_same {cmd : Byte} {s u t : State} (sent : sentFrame cmd s u) (transmit : sameTransmit u t)
    (memory : sameMemory u t) : sentFrame cmd s t := by
  obtain ⟨len, seq, sync, stream⟩ := transmit
  simpa only [sentFrame, sameMemory, sameMemoryBut, len, seq, sync, stream, memory _ _] using sent

/-- The frame of an issue operation is the one that the bytes before the decoder's reset make. -/
theorem sentFrame_issueFrame {cmd : Byte} {s : State} (length : cmd = s.cfg.ackCmd ∨ s.txLen ≠ 0) :
    sentFrame cmd s (issueFrame cmd s) := by
  have sent := sentFrame_encodeAndSend (s := decReset s) length
  simp only [sentFrame, sameMemory, sameMemoryBut, memRead_decReset] at sent
  exact sent

theorem memRead_buildAck (sp : Space) (i : Nat) (s : State) :
    memRead sp i (buildAck s) =
      if sp = .ackb ∧ i = 1 then memRead .rxp (s.rxLength.toNat - 1) s &&& 0x0F
      else if sp = .ackb ∧ i = 0 then s.rxCommand else memRead sp i s := by
  rw [buildAck, memRead_memWrite, memRead_memWrite]
  rfl

theorem memRead_sendAck (sp : Space) (i : Nat) (s : State) : memRead sp i (sendAck s) = memRead sp i (buildAck s) := by
  rw [sendAck, memRead_encodeAndSend, if_neg fun marked => marked.1 rfl]

theorem memBytes_two (sp : Space) (s : State) : memBytes sp 2 s = [memRead sp 0 s, memRead sp 1 s] := rfl

/-- The acknowledgement names the command received and the low nibble of its last payload byte (R146). -/
theorem sentAck_sendAck (s : State) : sentAck s (sendAck s) := by
  have stream := encodeAndSend_txStream s.cfg.ackCmd .ackb 2 (buildAck s)
  obtain ⟨synchronized, txLen⟩ : (sendAck s).synchronized = true ∧ (sendAck s).txLen = s.txLen := by
    obtain ⟨_, _, _, sent⟩ := encodeAndSend_frame s.cfg.ackCmd .ackb 2 (buildAck s)
    rw [sendAck, sent]
    exact ⟨rfl, rfl⟩
  have seq : (sendAck s).lnkSeq = s.lnkSeq := (encodeAndSend_lnkSeq s.cfg.ackCmd .ackb 2 (buildAck s)).trans (if_pos rfl)
  have command : memRead .ackb 0 (sendAck s) = s.rxCommand := by
    rw [memRead_sendAck, memRead_buildAck]
    simp
  have nibble : memRead .ackb 1 (sendAck s) = memRead .rxp (s.rxLength.toNat - 1) s &&& 0x0F := by
    rw [memRead_sendAck, memRead_buildAck, if_pos ⟨rfl, rfl⟩]
  refine ⟨?_, synchronized, txLen, seq, command, nibble, fun sp i other => ?_⟩
  · rw [← sendAck, memBytes_two, command, nibble] at stream
    exact stream
  · rw [memRead_sendAck, memRead_buildAck, if_neg fun h => other ⟨h.1, .inr h.2⟩,
      if_neg fun h => other ⟨h.1, .inl h.2⟩]

theorem sentAck_of_same {s u t : State} (sent : sentAck s u) (transmit : sameTransmit u t)
    (memory : sameMemory u t) : sentAck s t := by
  obtain ⟨len, seq, sync, stream⟩ := transmit
  simpa only [sentAck, len, seq, sync, stream, memory _ _] using sent

/-! ## LNK_INIT -/

/-- Settles O47: `LNK_INIT` has no condition, so `sessionInit_eq` gives every part. -/
theorem lnkInitReinitialises : Obligations.LnkInitReinitialises := by
  refine ⟨⟨by decide, rfl⟩, fun s => ⟨answer .host .ok (lnkValue .off) (sessionInit s), rfl, rfl, ⟨rfl, rfl, rfl⟩,
    ⟨rfl, rfl, rfl, rfl, rfl, rfl, rfl, rfl⟩, rfl, rfl, rfl, rfl, rfl, rfl, rfl, rfl, ⟨rfl, rfl⟩, ?_, ⟨rfl, rfl, rfl⟩⟩⟩
  exact sameMemory_of_arrays rfl rfl rfl rfl rfl

/-! ## LNK_POWER_ON and LNK_SEND -/

/-- The condition under which an issue operation is refused (R141), as the statements write it. -/
theorem not_refused_of_fits {cmd : Byte} {s : State} (fits : s.txLen.toNat ≤ s.cfg.maxPayload)
    (length : cmd = s.cfg.ackCmd ∨ s.txLen ≠ 0) :
    ¬(s.cfg.maxPayload < s.txLen.toNat ∨ cmd ≠ s.cfg.ackCmd ∧ s.txLen = 0) := by
  rintro (long | ⟨data, empty⟩)
  · omega
  · exact absurd empty (length.resolve_left data)

theorem decodeWord_lnkPowerOnTx (cmd : Byte) : decodeWord (packWord 0x0D 1 cmd) = .ok (.lnkPowerOnTx cmd) := by
  simp [decodeWord]

theorem lnkPowerOn_begins (s : State) :
    ∃ t, exec .lnkPowerOn s = .next t ∧ answered .host .ok 1 s t ∧ decoderCleared t ∧
      t.lnkState = .waitingForPowerOn ∧ timerStarted s t ∧ t.lnkPending = s.lnkPending ∧
      t.lnkExpected = s.lnkExpected ∧ t.lnkErr = s.lnkErr ∧ sameRing s t ∧ sameTransmit s t ∧ sameMemory s t ∧
      sameInputs s t :=
  ⟨_, rfl, rfl, ⟨rfl, rfl, rfl, rfl, rfl, rfl, rfl, rfl⟩, rfl, ⟨rfl, rfl, rfl⟩, rfl, rfl, rfl, ⟨rfl, rfl⟩,
    ⟨rfl, rfl, rfl, rfl⟩, sameMemory_of_arrays rfl rfl rfl rfl rfl, ⟨rfl, rfl, rfl⟩⟩

/-- Settles O48: without a frame by evaluation, with one by whether the length check refuses it. -/
theorem lnkPowerOnBeginsTheWait : Obligations.LnkPowerOnBeginsTheWait := by
  refine ⟨⟨⟨by decide, rfl⟩, fun cmd => ⟨decodeWord_lnkPowerOnTx cmd, rfl⟩⟩, lnkPowerOn_begins, fun cmd s => ?_⟩
  have check := encodeRefused_iff s.cfg cmd s.txLen
  by_cases refused : encodeRefused s.cfg cmd s.txLen.toNat = true
  case pos =>
    exact ⟨_, exec_lnkPowerOnTx_of_refused refused, fun _ => onlyAnswered_answer .host .errLen _ s,
      fun fits length => absurd (check.1 refused) (not_refused_of_fits fits length)⟩
  case neg =>
    refine ⟨_, exec_lnkPowerOnTx_of_passed refused, fun range => absurd (check.2 range) refused,
      fun _ length => ?_⟩
    have sent := sentFrame_issueFrame length
    obtain ⟨results, ring, decoder, ⟨-, -, expected, cause⟩, ⟨-, -, log⟩, inputs⟩ := issueFrame_keeps cmd s
    rw [powerOnTx_eq]
    generalize issueFrame cmd s = u at *
    refine ⟨congrArg (· ++ _) results, decoder, sentFrame_of_same sent ⟨rfl, rfl, rfl, rfl⟩
      (sameMemory_of_arrays rfl rfl rfl rfl rfl), rfl, expected, cause, rfl, ⟨rfl, rfl, ?_⟩, ring, inputs⟩
    simp [log, inputs.1]

/-- Settles O49, by whether the length check refuses the frame. -/
theorem lnkSendSendsOrRefuses : Obligations.LnkSendSendsOrRefuses := by
  refine ⟨fun cmd exp => ⟨decodeWord_lnkSend cmd exp, rfl⟩, fun cmd exp s => ?_⟩
  have check := encodeRefused_iff s.cfg cmd s.txLen
  by_cases refused : encodeRefused s.cfg cmd s.txLen.toNat = true
  case pos =>
    exact ⟨_, exec_lnkSend_of_refused exp refused, fun _ => onlyAnswered_answer .host .errLen _ s,
      fun fits length => absurd (check.1 refused) (not_refused_of_fits fits length)⟩
  case neg =>
    refine ⟨_, exec_lnkSend_of_passed exp refused, fun range => absurd (check.2 range) refused,
      fun _ length => ?_⟩
    have sent := sentFrame_issueFrame length
    obtain ⟨results, ring, decoder, ⟨-, -, -, cause⟩, ⟨-, -, log⟩, inputs⟩ := issueFrame_keeps cmd s
    rw [sendCommand_eq]
    generalize issueFrame cmd s = u at *
    refine ⟨congrArg (· ++ _) results, decoder, sentFrame_of_same sent ⟨rfl, rfl, rfl, rfl⟩
      (sameMemory_of_arrays rfl rfl rfl rfl rfl), rfl, rfl, cause, rfl, ⟨rfl, rfl, ?_⟩, ring, inputs⟩
    simp [log, inputs.1]

/-! ## What a poll does -/

theorem answered_pollAnswer {s t : State} {st : LnkState} (results : t.results = s.results) (h : t.lnkState = st) :
    answered .host .ok (lnkValue st) s (pollAnswer t) := by
  rw [← h]
  exact congrArg (· ++ _) results

/-- The whole error entry has taken place (R206). -/
theorem enteredError_enterError (kind : LnkErr) (s : State) :
    answered .host .ok 6 s (pollAnswer (enterError kind s)) ∧
      enteredError kind s (pollAnswer (enterError kind s)) :=
  ⟨rfl, ⟨rfl, rfl, rfl⟩, ⟨rfl, rfl, rfl, rfl, rfl, rfl, rfl, rfl⟩, rfl, rfl, rfl, rfl, ⟨rfl, rfl⟩,
    ⟨rfl, rfl, rfl, rfl⟩, sameMemory_of_arrays rfl rfl rfl rfl rfl, ⟨rfl, rfl, rfl⟩⟩

/-- An undisturbed poll of a frame that the decoder holds is part 3 alone (R159). -/
theorem pollOp_of_frame {s : State} (quiet : undisturbed s = true) (noExpiry : s.tmrFired = false)
    (terminal : s.decState.terminal = true) : pollOp s = pollFinish (some s.decState) s := by
  have goesOn : timeoutEnds s = false := by simp [timeoutEnds, noExpiry]
  have nothing : consumeExpiry s = s := by simp [consumeExpiry, noExpiry]
  simp only [pollOp_eq, goesOn, Bool.false_eq_true, if_false, pulled_of_terminal terminal, nothing,
    gap_of_undisturbed s quiet]

/-- An undisturbed poll that finds no byte ends after part 1. -/
theorem pollOp_of_empty {s : State} (quiet : undisturbed s = true) (goesOn : timeoutEnds s = false)
    (run : s.decState.terminal = false) (empty : s.rbRd = s.rbWr) : pollOp s = consumeExpiry s := by
  have quiet' : undisturbed (consumeExpiry s) = true := by
    unfold consumeExpiry
    split <;> exact quiet
  obtain ⟨run', empty'⟩ :
      (consumeExpiry s).decState.terminal = false ∧ ringEmpty (consumeExpiry s) = true := by
    rw [ringEmpty_iff]
    unfold consumeExpiry
    split <;> exact ⟨run, empty⟩
  have noByte : decStepOp (consumeExpiry s) = (consumeExpiry s, none) := by
    simp [decStepOp, run', empty']
  have nothing : pulled s = (consumeExpiry s, none) := by
    rw [pulled, pollFuel, pullLoop_succ, gap_of_undisturbed _ quiet', noByte]
    simp only [endsPull, if_true, gap_of_undisturbed _ quiet']
  rw [pollOp_eq, goesOn, nothing]
  rfl

/-- Settles O51: the timeout ends the poll in part 1. -/
theorem pollTakesThePendingTimeout : Obligations.PollTakesThePendingTimeout := by
  intro s fired notReady notResponse notOff
  have ends : timeoutEnds s = true := by
    cases h : s.lnkState <;> simp_all [timeoutEnds, LnkState.ignoresTimeout]
  have entry : pollOp s = enterError .timeout s := by rw [pollOp_eq, ends]; rfl
  exact ⟨_, exec_lnkPoll s, by rw [entry]; exact enteredError_enterError .timeout s⟩

/-- Settles O52: part 1 stops the timer, part 2 finds nothing. -/
theorem pollConsumesAnIgnoredExpiry : Obligations.PollConsumesAnIgnoredExpiry := by
  intro s quiet fired run empty ignores
  have goesOn : timeoutEnds s = false := by
    rcases ignores with h | h | h <;> simp [timeoutEnds, h, LnkState.ignoresTimeout]
  have stopped : pollOp s = timerStop s := by
    rw [pollOp_of_empty quiet goesOn run empty]
    exact if_pos fired
  refine ⟨_, exec_lnkPoll s, ?_⟩
  rw [stopped]
  exact ⟨rfl, ⟨rfl, rfl, rfl⟩, ⟨rfl, rfl, rfl, rfl, rfl, rfl, rfl, rfl⟩, ⟨rfl, rfl, rfl, rfl⟩, ⟨rfl, rfl⟩,
    ⟨rfl, rfl, rfl, rfl⟩, sameMemory_of_arrays rfl rfl rfl rfl rfl, ⟨rfl, rfl, rfl⟩⟩

/-- Settles O53: neither part 1 nor part 2 finds anything. -/
theorem pollWithoutInput : Obligations.PollWithoutInput := by
  intro s quiet noExpiry run empty
  have nothing : pollOp s = s := by
    rw [pollOp_of_empty quiet (by simp [timeoutEnds, noExpiry]) run empty]
    exact if_neg (by simp [noExpiry])
  refine ⟨_, exec_lnkPoll s, ?_⟩
  rw [nothing]
  exact onlyAnswered_answer .host .ok _ s

/-! ## A verified frame -/

/-- An undisturbed poll of a verified frame dispatches it (R163 to R167). -/
theorem exec_lnkPoll_of_verified {s : State} (quiet : undisturbed s = true) (noExpiry : s.tmrFired = false)
    (frame : s.decState = .ready) : exec .lnkPoll s = .next (pollAnswer (onFrame s)) := by
  rw [exec_lnkPoll, pollOp_of_frame quiet noExpiry (by rw [frame]; rfl), frame]
  rfl

/-- Settles O55, by whether the frame is the completion of power-on. -/
theorem pollInWaitingForPowerOn : Obligations.PollInWaitingForPowerOn := by
  intro s quiet noExpiry frame waits
  have dispatched : onFrame s = onFramePowerOn s := by simp only [onFrame, waits]
  refine ⟨_, exec_lnkPoll_of_verified quiet noExpiry frame, ?_⟩
  rw [dispatched]
  by_cases done : s.rxCommand = s.cfg.pwronDoneCmd
  · rw [onFramePowerOn, if_pos done]
    exact ⟨rfl, rfl, rfl, ⟨rfl, rfl⟩, ⟨rfl, rfl, rfl, rfl⟩, sameMemory_of_arrays rfl rfl rfl rfl rfl, ⟨rfl, rfl, rfl⟩,
      fun _ => ⟨rfl, rfl, ⟨rfl, rfl, rfl⟩, rfl, rfl, rfl, rfl, rfl, rfl, rfl, rfl⟩, fun other => absurd done other⟩
  · rw [onFramePowerOn, if_neg done]
    exact ⟨rfl, rfl, rfl, ⟨rfl, rfl⟩, ⟨rfl, rfl, rfl, rfl⟩, sameMemory_of_arrays rfl rfl rfl rfl rfl, ⟨rfl, rfl, rfl⟩,
      fun completion => absurd completion done, fun _ => ⟨answered_pollAnswer (st := .waitingForPowerOn) rfl waits,
        waits, ⟨rfl, rfl, rfl⟩, rfl, rfl, rfl, rfl, rfl, rfl, rfl, rfl⟩⟩

/-- Settles O56: the matching acknowledgement, another one, and any other frame are the branches of
`onFrameAcknowledge`. -/
theorem pollInWaitingForAcknowledge : Obligations.PollInWaitingForAcknowledge := by
  intro s quiet noExpiry frame waits
  have dispatched : onFrame s = onFrameAcknowledge s := by simp only [onFrame, waits]
  refine ⟨_, exec_lnkPoll_of_verified quiet noExpiry frame, ?_⟩
  rw [dispatched, onFrameAcknowledge]
  by_cases ack : s.rxCommand = s.cfg.ackCmd
  · by_cases same : memRead .rxp 0 s = s.lnkPending
    · rw [if_pos ack, if_pos same]
      exact ⟨fun _ _ => ⟨rfl, rfl, ⟨rfl, rfl, rfl, rfl, rfl, rfl, rfl, rfl⟩, ⟨rfl, rfl, rfl⟩, rfl, rfl, rfl,
        ⟨rfl, rfl⟩, ⟨rfl, rfl, rfl, rfl⟩, sameMemory_of_arrays rfl rfl rfl rfl rfl, ⟨rfl, rfl, rfl⟩⟩,
        fun _ differs => absurd same differs, fun other => absurd ack other⟩
    · rw [if_pos ack, if_neg same]
      exact ⟨fun _ matching => absurd matching same, fun _ _ => enteredError_enterError .unexpectedCommand s,
        fun other => absurd ack other⟩
  · rw [if_neg ack]
    have sent := sentAck_sendAck s
    obtain ⟨results, ring, -, session, ⟨-, -, log⟩, inputs⟩ := sendAck_keeps s
    generalize sendAck s = u at *
    refine ⟨fun acknowledges => absurd acknowledges ack, fun acknowledges => absurd acknowledges ack, fun _ =>
      ⟨answered_pollAnswer (st := .waitingForAcknowledge) results (session.1.trans waits),
        sentAck_of_same sent ⟨rfl, rfl, rfl, rfl⟩ (sameMemory_of_arrays rfl rfl rfl rfl rfl),
        ⟨rfl, rfl, rfl, rfl, rfl, rfl, rfl, rfl⟩, ⟨rfl, rfl, ?_⟩, session, ring, inputs⟩⟩
    simp [pollAnswer, log, inputs.1]

/-- Settles O57, by whether the frame has the expected command. -/
theorem pollInWaitingForResponse : Obligations.PollInWaitingForResponse := by
  intro s quiet noExpiry frame waits
  have dispatched : onFrame s = onFrameResponse s := by simp only [onFrame, waits]
  refine ⟨_, exec_lnkPoll_of_verified quiet noExpiry frame, ?_⟩
  rw [dispatched, onFrameResponse]
  by_cases expected : s.rxCommand = s.lnkExpected
  · rw [if_pos expected]
    have sent := sentAck_sendAck s
    obtain ⟨results, ring, decoder, ⟨-, pending, exp, cause⟩, ⟨-, -, log⟩, inputs⟩ := sendAck_keeps s
    generalize sendAck s = u at *
    refine ⟨fun _ => ⟨answered_pollAnswer (st := .responseReady) results rfl,
      sentAck_of_same sent ⟨rfl, rfl, rfl, rfl⟩ (sameMemory_of_arrays rfl rfl rfl rfl rfl), decoder, ⟨rfl, rfl, ?_⟩,
      rfl, pending, exp, cause, ring, inputs⟩, fun other => absurd expected other⟩
    simp [pollAnswer, log]
  · rw [if_neg expected]
    exact ⟨fun awaited => absurd awaited expected, fun _ => enteredError_enterError .unexpectedCommand s⟩

/-- Settles O58: in these four states `onFrame` is the identity or stops the timer. -/
theorem pollKeepsTheFrameElsewhere : Obligations.PollKeepsTheFrameElsewhere := by
  intro s quiet noExpiry frame
  refine ⟨_, exec_lnkPoll_of_verified quiet noExpiry frame, fun idle => ?_, fun held => ?_⟩
  · have kept : onFrame s = s := by rcases idle with h | h | h <;> simp only [onFrame, h]
    rw [kept]
    exact onlyAnswered_answer .host .ok _ s
  · have stopped : onFrame s = timerStop s := by simp only [onFrame, held]
    rw [stopped]
    exact ⟨answered_pollAnswer (st := .responseReady) rfl held, ⟨rfl, rfl, rfl⟩,
      ⟨rfl, rfl, rfl, rfl, rfl, rfl, rfl, rfl⟩, ⟨rfl, rfl, rfl, rfl⟩, ⟨rfl, rfl⟩, ⟨rfl, rfl, rfl, rfl⟩,
      sameMemory_of_arrays rfl rfl rfl rfl rfl, ⟨rfl, rfl, rfl⟩⟩

end Sys2Proof.Machine
end

section
/-! The pull loop of LNK_POLL (spec/43_link.md R159, R161): its bound, and what an undisturbed poll pulls from the
ring. -/

namespace Sys2Proof.Machine

/-! ## The bytes in sight -/

/-- How many bytes these inputs can queue. -/
def bytesIn (rs : List Request) : Nat := (rs.map Request.byteCount).sum

theorem bytesInSight_eq (s : State) : bytesInSight s = ringCount s + bytesIn s.requests := rfl

theorem ringCount_feed_le (bs : List Byte) {s : State} (ok : ringOk s) :
    ringCount (feed bs s) ≤ ringCount s + bs.length := by
  rw [← length_queued, queued_feed bs ok, List.length_take, List.length_append, length_queued]
  omega

theorem ringCount_takeEventWord_producer_le (w : Word) {s : State} (ok : ringOk s) :
    ringCount (takeEventWord .producer w s) ≤ ringCount s + 1 := by
  rcases takeEventWord_producer_cases w s with ⟨b, h⟩ | h <;> rw [h]
  · exact ringCount_feed_le [b] ok
  · exact Nat.le_succ _

theorem ringCount_takeEventWord_timer (w : Word) (s : State) :
    ringCount (takeEventWord .timer w s) = ringCount s := by
  rcases takeEventWord_timer_cases w s with h | h <;> rw [h]
  · rw [tmrExpireOp_eq]
    rfl
  · rfl

theorem Effects.keeps_ringOk {s t : State} (es : Effects s t) (ok : ringOk s) : ringOk t :=
  es.keeps (fun _ _ e => e.keeps_ringOk) ok

/-- Every byte that an input in a gap queues was in sight before. -/
theorem bytesInSight_takeEvents_le (rs : List Request) {s : State} (ok : ringOk s) :
    bytesInSight (takeEvents rs s) ≤ ringCount s + bytesIn rs := by
  fun_induction takeEvents rs s with
  | case2 w rest s ih =>
    have others := ih ((takeEventWord_effects .producer w s).keeps_ringOk ok)
    have one := ringCount_takeEventWord_producer_le w ok
    simp only [bytesIn, List.map_cons, List.sum_cons, Request.byteCount] at others ⊢
    omega
  | case3 w rest s ih =>
    have others := ih ((takeEventWord_effects .timer w s).keeps_ringOk ok)
    rw [ringCount_takeEventWord_timer] at others
    simp only [bytesIn, List.map_cons, List.sum_cons, Request.byteCount] at others ⊢
    omega
  | case4 bs rest s ih =>
    have others := ih ((feed_effects bs s).keeps_ringOk ok)
    have fed := ringCount_feed_le bs ok
    simp only [bytesIn, List.map_cons, List.sum_cons, Request.byteCount] at others ⊢
    omega
  | _ => exact Nat.le_refl _

theorem bytesInSight_gap_le {s : State} (ok : ringOk s) : bytesInSight (gap s) ≤ bytesInSight s :=
  bytesInSight_takeEvents_le s.requests ok

/-- A micro-step that does not end the pull loop takes one of the bytes in sight. -/
theorem bytesInSight_of_decStepOp {s : State} (ok : ringOk s) (goesOn : endsPull (decStepOp s).2 = false) :
    bytesInSight s = bytesInSight (decStepOp s).1 + 1 := by
  rcases decStepOp_cases s with ⟨ended, h⟩ | ⟨-, -, h⟩ | ⟨-, byte, h⟩
  · simp [h, endsPull, ended] at goesOn
  · simp [h, endsPull] at goesOn
  · obtain ⟨_, _, _, _, _, _, _, _, _, frame⟩ := decConsume_frame (ringFront s) (ringPop s)
    have popped := ringCount_ringPop ok byte
    have after : bytesInSight (renewRx (decConsume (ringFront s) (ringPop s))) =
        ringCount (ringPop s) + bytesIn s.requests := by
      rw [frame]
      rfl
    rw [h, after, bytesInSight_eq]
    omega

/-! ## The bound of the pull loop -/

/-- One round keeps the ring in range and leaves at most the bytes in sight but one. -/
theorem pullLoop_round {s : State} (ok : ringOk s) (goesOn : endsPull (decStepOp s).2 = false) :
    ringOk (gap (decStepOp s).1) ∧ bytesInSight (gap (decStepOp s).1) < bytesInSight s := by
  have ok' := ringOk_decStepOp ok
  have fewer := bytesInSight_of_decStepOp ok goesOn
  have inGap := bytesInSight_gap_le ok'
  exact ⟨(gap_effects _).keeps_ringOk ok', by omega⟩

/-- Any two bounds above the bytes in sight give the same result. -/
theorem pullLoop_of_enough {n m : Nat} {s : State} (ok : ringOk s) (hn : bytesInSight s < n)
    (hm : bytesInSight s < m) : pullLoop n s = pullLoop m s := by
  induction n generalizing m s with
  | zero => omega
  | succ n ih =>
    obtain ⟨m, rfl⟩ : ∃ k, m = k + 1 := Nat.exists_eq_succ_of_ne_zero (by omega)
    rw [pullLoop_succ, pullLoop_succ]
    cases goesOn : endsPull (decStepOp s).2 with
    | true => rfl
    | false =>
      obtain ⟨ok', fewer⟩ := pullLoop_round ok goesOn
      simp only [Bool.false_eq_true, if_false]
      exact ih ok' (by omega) (by omega)

/-- A micro-step that does not end the loop is followed by a gap and the loop from there. -/
theorem pullLoop_goesOn {s : State} (ok : ringOk s) (goesOn : endsPull (decStepOp s).2 = false) :
    pullLoop (pollFuel s) s = pullLoop (pollFuel (gap (decStepOp s).1)) (gap (decStepOp s).1) := by
  obtain ⟨ok', fewer⟩ := pullLoop_round ok goesOn
  rw [pollFuel, pullLoop_succ, goesOn]
  exact pullLoop_of_enough ok' fewer (Nat.lt_succ_self _)

/-- Settles O59: `pullLoop_of_enough` for larger bounds, `pullLoop_goesOn` for one round. -/
theorem pullLoopBoundNeverEndsIt : Obligations.PullLoopBoundNeverEndsIt := by
  intro s ok
  refine ⟨fun k => pullLoop_of_enough ok (by unfold pollFuel; omega) (Nat.lt_succ_self _),
    fun t st h notReady notError => ?_⟩
  have goesOn : endsPull (decStepOp s).2 = false := by
    rw [h, endsPull, Bool.eq_false_iff]
    intro ended
    rcases terminal_cases ended with rfl | rfl
    · exact notReady rfl
    · exact notError rfl
  have round := pullLoop_goesOn ok goesOn
  rwa [h] at round

/-! ## A poll that pulls bytes -/

/-- A poll goes on after a micro-step as a poll of the state reached, unless an expiry has come in between. -/
theorem pollOp_goesOn {s t : State} {st : DecState} (ok : ringOk s) (noExpiry : s.tmrFired = false)
    (noneInGap : (gap s).tmrFired = false) (h : decStepOp (gap s) = (t, some st)) (run : st.terminal = false) :
    pollOp s = pollOp t := by
  have still : t.tmrFired = false := by
    rcases decStepOp_cases (gap s) with ⟨-, e⟩ | ⟨-, -, e⟩ | ⟨-, -, e⟩
    · obtain ⟨rfl, -⟩ := Prod.mk.inj (h.symm.trans e)
      exact noneInGap
    · cases h.symm.trans e
    · obtain ⟨rfl, -⟩ := Prod.mk.inj (h.symm.trans e)
      obtain ⟨_, _, _, _, _, _, _, _, _, frame⟩ := decConsume_frame (ringFront (gap s)) (ringPop (gap s))
      rw [frame]
      exact noneInGap
  have round := pullLoop_goesOn ((gap_effects s).keeps_ringOk ok) (by rw [h]; exact run)
  rw [h] at round
  rw [pollOp_of_no_expiry noExpiry, pollOp_of_no_expiry still, round]

theorem undisturbed_congr {s t : State} (h : t.requests = s.requests) : undisturbed t = undisturbed s := by
  simp only [undisturbed, h]

/-- What the decoder makes of the front of the ring. -/
def pulledByte (s : State) : State := renewRx (decConsume (ringFront s) (ringPop s))

theorem pulledByte_keeps (s : State) :
    sameSession s (pulledByte s) ∧ sameTimer s (pulledByte s) ∧ sameTransmit s (pulledByte s) ∧
      sameInputs s (pulledByte s) ∧ (pulledByte s).results = s.results ∧
      ∀ sp i, sp ≠ .rxp → memRead sp i (pulledByte s) = memRead sp i s := by
  obtain ⟨-, -, -, session, timer, transmit, inputs⟩ := tookByte_decAnswer s
  refine ⟨session, timer, transmit, inputs, ?_, fun sp i other => ?_⟩
  · obtain ⟨_, _, _, _, _, _, _, _, _, frame⟩ := decConsume_frame (ringFront s) (ringPop s)
    rw [pulledByte, frame]
    rfl
  · rw [pulledByte, memRead_renewRx, memRead_decConsume, if_neg fun stores => other stores.2.1, memRead_ringPop]

/-- An undisturbed poll with a byte queued is a poll of the state in which the decoder has taken it, whether or not
that ends a frame. -/
theorem pollOp_pulledByte {s : State} (ok : ringOk s) (quiet : undisturbed s = true) (noExpiry : s.tmrFired = false)
    (run : s.decState.terminal = false) (byte : ringEmpty s = false) : pollOp s = pollOp (pulledByte s) := by
  have step : decStepOp s = (pulledByte s, some (pulledByte s).decState) := by
    simp [decStepOp, run, byte, pulledByte]
  obtain ⟨-, ⟨-, fired, -⟩, -, ⟨-, requests, -⟩, -⟩ := pulledByte_keeps s
  have quiet' : undisturbed (pulledByte s) = true := (undisturbed_congr requests).trans quiet
  have sameGap := gap_of_undisturbed s quiet
  cases ended : (pulledByte s).decState.terminal with
  | false => exact pollOp_goesOn ok noExpiry (by rw [sameGap, noExpiry]) (by rw [sameGap, step]) ended
  | true =>
    rw [pollOp_of_frame quiet' (fired.trans noExpiry) ended, pollOp_of_no_expiry noExpiry, sameGap, pollFuel,
      pullLoop_succ, step, endsPull, ended]
    simp only [if_true, gap_of_undisturbed _ quiet']

theorem pulledFrom_refl (s : State) : pulledFrom (queued s) s s :=
  ⟨rfl, ⟨rfl, rfl, rfl, rfl⟩, ⟨rfl, rfl, rfl⟩, ⟨rfl, rfl, rfl, rfl⟩, ⟨rfl, rfl, rfl⟩, rfl, fun _ _ _ => rfl⟩

/-- One byte pulled before others. -/
theorem pulledFrom_pulledByte {rest : List Byte} {s u : State} (h : pulledFrom rest (pulledByte s) u) :
    pulledFrom rest s u := by
  obtain ⟨session, ⟨armed, fired, log⟩, ⟨len, seq, sync, stream⟩, ⟨cfg, requests, epoch⟩, results, others⟩ :=
    pulledByte_keeps s
  obtain ⟨queue, session', ⟨armed', fired', log'⟩, ⟨len', seq', sync', stream'⟩, ⟨cfg', requests', epoch'⟩,
    results', others'⟩ := h
  exact ⟨queue, sameSession_trans session session', ⟨armed'.trans armed, fired'.trans fired, log'.trans log⟩,
    ⟨len'.trans len, seq'.trans seq, sync'.trans sync, stream'.trans stream⟩,
    ⟨cfg'.trans cfg, requests'.trans requests, epoch'.trans epoch⟩, results'.trans results,
    fun sp i other => (others' sp i other).trans (others sp i other)⟩

/-- Queued bytes of which none but the last ends a frame are pulled as the decoder takes them, and the poll is one
of the state reached. -/
theorem pollOp_pulls (taken rest : List Byte) {s : State} (ok : ringOk s) (quiet : undisturbed s = true)
    (noExpiry : s.tmrFired = false) (queue : queued s = taken ++ rest)
    (running : ∀ k, k < taken.length → (decFeed (taken.take k) s).decState.terminal = false) :
    ∃ u, pollOp s = pollOp u ∧ decodeAlike (decFeed taken s) u ∧ pulledFrom rest s u := by
  induction taken generalizing s with
  | nil =>
    rw [List.nil_append] at queue
    exact ⟨s, rfl, decodeAlike_refl s, queue ▸ pulledFrom_refl s⟩
  | cons b bs ih =>
    have run : s.decState.terminal = false := running 0 (Nat.succ_pos _)
    have byte : ringEmpty s = false := by
      rw [Bool.eq_false_iff]
      intro empty
      rw [(queued_eq_nil_iff s).2 ((ringEmpty_iff_count ok).1 empty)] at queue
      cases queue
    obtain ⟨front, queue'⟩ := List.cons.inj ((queued_ringPop ok byte).symm.trans queue)
    have alike : decodeAlike (decConsume b s) (pulledByte s) := front ▸ decodeAlike_taken (ringFront s) s
    have ok' : ringOk (pulledByte s) := (Effect.decoded s run byte).keeps_ringOk ok
    obtain ⟨-, ⟨-, fired, -⟩, -, ⟨-, requests, -⟩, -⟩ := pulledByte_keeps s
    obtain ⟨u, poll, decoder, others⟩ := ih ok' ((undisturbed_congr requests).trans quiet) (fired.trans noExpiry)
      ((queued_decConsume _ _).trans queue') fun k hk => by
        rw [(decFeed_alike (bs.take k) alike).2.1.1]
        exact running (k + 1) (Nat.succ_lt_succ hk)
    exact ⟨u, (pollOp_pulledByte ok quiet noExpiry run byte).trans poll,
      decodeAlike_trans (decFeed_alike bs alike) decoder, pulledFrom_pulledByte others⟩

/-! ## Stray bytes and a whole frame -/

/-- Without the marker a decoder between frames skips what comes (R123). -/
theorem decFeed_stray (stray : List Byte) {s : State} (idle : s.decState = .noFrame)
    (noMarker : s.cfg.frameMarker ∉ stray) : decFeed stray s = s := by
  induction stray with
  | nil => rfl
  | cons b bs ih =>
    obtain ⟨other, others⟩ : s.cfg.frameMarker ≠ b ∧ s.cfg.frameMarker ∉ bs := by simpa using noMarker
    rw [decFeed_cons, decConsume_stray idle (Ne.symm other), ih others]

theorem decFeed_memEpoch (bs : List Byte) (s : State) : (decFeed bs s).memEpoch = s.memEpoch := by
  induction bs generalizing s with
  | nil => rfl
  | cons b bs ih =>
    obtain ⟨_, _, _, _, _, _, _, _, _, frame⟩ := decConsume_frame b s
    rw [decFeed_cons, ih, frame]

/-- States that the decoder cannot tell apart hold the same payload. -/
theorem memRead_rxp_of_alike {bs : List Byte} {s u : State} (alike : decodeAlike (decFeed bs s) u)
    (epoch : u.memEpoch = s.memEpoch) (i : Nat) : memRead .rxp i u = memRead .rxp i (decFeed bs s) :=
  memRead_congr .rxp i alike.2.2 (epoch.trans (decFeed_memEpoch bs s).symm)

/-- Stray bytes and a whole good frame end nothing before their last byte. -/
theorem running_stray_frame {s : State} (ok : s.cfg.ok = true) (h : decoderCleared s) {stray payload : List Byte}
    (noMarker : s.cfg.frameMarker ∉ stray) (dest src cmd : Byte) (nonempty : 1 ≤ payload.length)
    (short : payload.length ≤ s.cfg.maxPayload) (k : Nat)
    (hk : k < (stray ++ frameBytes s.cfg dest src cmd payload).length) :
    (decFeed ((stray ++ frameBytes s.cfg dest src cmd payload).take k) s).decState.terminal = false := by
  obtain ⟨last, -⟩ := decFeed_frameBytes ok h dest src cmd nonempty short
  have frameNonempty : frameBytes s.cfg dest src cmd payload ≠ [] := by simp [frameBytes]
  have front : (stray ++ frameBytes s.cfg dest src cmd payload).take k =
      ((stray ++ frameBytes s.cfg dest src cmd payload).dropLast).take k := by
    rw [List.dropLast_eq_take, List.take_take, Nat.min_eq_left (by omega)]
  rw [front, List.dropLast_append_of_ne_nil frameNonempty]
  refine terminal_decFeed_take ?_ k
  rw [decFeed_append, decFeed_stray stray h.1 noMarker, last]
  rfl

/-- Settles O60: one micro-step is `pollOp_goesOn`, bytes with nothing in the gaps `pollOp_pulls`, and of stray bytes
and a frame `decFeed_frameBytes` says what the decoder makes. -/
theorem pollPullsQueuedBytes : Obligations.PollPullsQueuedBytes := by
  refine ⟨fun s t st ok noExpiry noneInGap h run => ?_, fun s taken rest ok quiet noExpiry queue running => ?_,
    fun s stray rest payload dest src cmd ok quiet noExpiry cleared noMarker nonempty short queue => ?_⟩
  · rw [exec_lnkPoll, exec_lnkPoll, pollOp_goesOn ok noExpiry noneInGap h run]
  · obtain ⟨u, poll, alike, others⟩ := pollOp_pulls taken rest ok quiet noExpiry queue running
    obtain ⟨-, -, -, -, ⟨-, -, epoch⟩, -⟩ := id others
    exact ⟨u, by rw [exec_lnkPoll, exec_lnkPoll, poll], alike.2.1, memRead_rxp_of_alike alike epoch, others⟩
  · obtain ⟨u, poll, alike, others⟩ := pollOp_pulls _ rest ok quiet noExpiry queue
      (running_stray_frame ok.1 cleared noMarker dest src cmd nonempty short)
    obtain ⟨-, -, -, -, ⟨-, -, epoch⟩, -⟩ := id others
    have payloadRead := memRead_rxp_of_alike alike epoch
    obtain ⟨-, state, command, length, stored, -⟩ := decFeed_frameBytes ok.1 cleared dest src cmd nonempty short
    obtain ⟨-, ⟨state', -, -, -, -, -, command', length'⟩, -⟩ := alike
    rw [decFeed_append, decFeed_stray stray cleared.1 noMarker] at payloadRead state' command' length'
    refine ⟨u, by rw [exec_lnkPoll, exec_lnkPoll, poll], state'.trans state, command'.trans command, ?_, ?_, others⟩
    · rw [length', length]
    · rw [memBytes, List.map_congr_left fun i _ => payloadRead i]
      exact stored

/-! ## A failed frame -/

/-- The poll of a failed frame is the error entry (R162). -/
theorem pollOp_of_failed {s : State} (quiet : undisturbed s = true) (noExpiry : s.tmrFired = false)
    (failed : s.decState = .error) : pollOp s = enterError (frameErrorKind s.decErr) s := by
  rw [pollOp_of_frame quiet noExpiry (by rw [failed]; rfl), failed]
  rfl

/-- Settles O54: a frame held is `pollOp_of_failed`, one pulled from the ring becomes a frame held by
`pollOp_pulls`. -/
theorem pollOfBadFrameEntersError : Obligations.PollOfBadFrameEntersError := by
  constructor
  · intro s quiet noExpiry failed
    refine ⟨_, exec_lnkPoll s, ?_⟩
    rw [pollOp_of_failed quiet noExpiry failed]
    exact enteredError_enterError _ s
  · intro s taken rest ok quiet noExpiry queue failed running
    obtain ⟨u, poll, ⟨-, ⟨state, -, -, -, -, cause, -⟩, -⟩, queue', ⟨st, pending, expected, err⟩, ⟨-, fired, log⟩,
      transmit, inputs, results, others⟩ := pollOp_pulls taken rest ok quiet noExpiry queue running
    have entry := pollOp_of_failed ((undisturbed_congr inputs.2.1).trans quiet) (fired.trans noExpiry)
      (state.trans failed)
    have kept : queued (pollAnswer (enterError (frameErrorKind u.decErr) u)) = queued u :=
      queued_congr rfl rfl rfl fun _ => rfl
    refine ⟨_, exec_lnkPoll s, ?_⟩
    rw [poll, entry]
    refine ⟨congrArg (· ++ _) results, ⟨rfl, rfl, congrArg (· ++ _) log⟩, ⟨rfl, rfl, rfl, rfl, rfl, rfl, rfl, rfl⟩, rfl,
      ?_, pending, expected, kept.trans queue', transmit, inputs, fun sp i other => ?_⟩
    · rw [← cause, ← st, ← err]
      rfl
    · rw [← others sp i other]
      exact sameMemory_of_arrays rfl rfl rfl rfl rfl sp i

end Sys2Proof.Machine
end
